-- ==== Sys2Proof/Word.lean ====
section
/-! DEFINITION. The words the unit's cells are made of (spec/10): bytes, and the sets a cell carries as one bit
for each member (R199 items 5 and 6). -/
namespace Sys2Proof

/-- One byte of a cell or of the content memory (chapter 10, R68). -/
abbrev Byte := BitVec 8

/-- A set of panel ports. R199 item 5 gives it as 12 bits, P0 first; here bit `p` says whether Pp is a member. -/
abbrev PortSet := BitVec 12

/-- A board's auditorium filter. R199 item 6 gives it as 24 bits, auditorium 1 first; here bit `a - 1` says whether
auditorium `a` is a member. -/
abbrev AuditoriumSet := BitVec 24

/-- A board's pending set, one mark for each row index (R65): bit `i` says whether row `i` is pending. -/
abbrev RowSet := BitVec 16

end Sys2Proof
end

