-- ==== Sys2Proof/Config.lean ====
section
/-! DEFINITION. What one implementation fixes, and the free values: constants without a body, of which no proof can
know anything (logs 5 and 18). -/
namespace Sys2Proof.Config

/-- Shows 0–95 (1.3), desks and tables sizes, as the chapters state them. -/
def showSlots : Nat := 96
/-- Title numbers 0–63 (R7). -/
def titlePlaces : Nat := 64
/-- Places of the hold table (R31). -/
def holdPlaces : Nat := 64
/-- Places of the notice table (R118). -/
def noticePlaces : Nat := 24
/-- Pages of the content memory (4.1). -/
def contentPages : Nat := 262144
/-- Cell places of one page (4.1). -/
def placesPerPage : Nat := 64
/-- Bytes of one cell place, one payload (R68). -/
def payloadBytes : Nat := 64
/-- Bytes of one cell (chapter 10). -/
def cellBytes : Nat := 80
/-- Places of the reply queue (R177). -/
def replyPlaces : Nat := 16
/-- Places of the intake (8.3). -/
def intakePlaces : Nat := 2
/-- Places of a live buffer (R140, R153). -/
def livePlaces : Nat := 4
/-- Last minute of the lobby day (R2, R10). -/
def lastMinute : Nat := 1799
/-- The run-seconds counter stays at this count (R1). -/
def lastRunSecond : Nat := 4294967295
/-- Default hold time of SEAT HOLD in seconds (R33). -/
def defaultHoldSeconds : Nat := 180
/-- A prefetch is made at this residual count or below (R98). -/
def prefetchResidual : Nat := 8
/-- The address of the lobby server (chapter 8). -/
def serverAddress : Nat := 30
/-- The address that means all units (chapter 8). -/
def broadcastAddress : Nat := 31
/-- LINK cells that must meet a released boundary (R145). -/
def linkTarget : Nat := 4
/-- Link timer in ms (R145: 2 s). -/
def linkMs : Nat := 2000
/-- Retry timer in ms (R147: 8 s). -/
def retryMs : Nat := 8000
/-- Loss timer in ms (R180). -/
def lossMs : Nat := 250
/-- A port interval setting n means 25 ms × 2^n (R140, 00 Conventions). -/
def portIntervalMs (n : Nat) : Nat := 25 * 2 ^ n
/-- Part code of the HELLO reply (R199). -/
def partCode : Nat := 0x0C12
/-- Revision of the HELLO reply (R199). -/
def revision : Nat := 1

/-- FREE VALUE (log 5). The undefined byte at a content-memory address that nothing has written since power-on number
`epoch` (R68: "At power-on the contents of every place are undefined"). Addresses at or above 2^30 stand for reads
through a segment record that reserves no pages: such a read gives free bytes (log 29). -/
opaque undefinedByte (epoch address : Nat) : Byte

/-- FREE VALUE (log 18). What a field of `width` bits carries when its value does not fit: the spec states none. -/
opaque oversizeField (width value : Nat) : Nat

/-- FREE VALUE (log 18). The payload bits behind the last field that fits, in a reply whose fields, `width` bits with value
`value`, need more than the 512 bits of a payload: the spec states none. -/
opaque overlongPayload (width value : Nat) : Nat

/-- FREE VALUE (log 34). Whether the `n`-th LIVE cell since power-on number `epoch` that finds port number `port` already reset by a
UNIT RESET still under way, with its picture not open and a place free, is copied into the live buffer (R194) or dropped with the
live gap on (R172, R153): the spec's rules give both outcomes. -/
opaque resetPortTakesLive (epoch port n : Nat) : Bool

end Sys2Proof.Config
end

