-- ==== Sys2Proof/Syntax.lean ====
section
/-! DEFINITION. The commands of the block: one constructor for each row of spec/opcode_table.json. The rows have no
bits. An order's fields stand in the cell the FRI took into the intake, so an order command has no operands (log 1). -/
namespace Sys2Proof

/-- A panel port, P0 to P11. -/
abbrev Port := Fin 12

/-- The owners that take a UNIT RESET, each in its own time (R193). The Order Handler, which hands the reset to them, updates
its own record as it does so (log 9). -/
inductive Owner where
  | timebase | showTable | seatTally | boardComposer | segmentTable | reelTable | playoutChannels | noticeQueue | panelPorts
  | feedRing
  deriving DecidableEq, Repr

/-- The commands. Times named `…Ms` and `…Us` are the milliseconds and microseconds the sender measured (log 7). -/
inductive Instr where
  /-- R195, R167: power-on; the operand is the setting of the five address straps. -/
  | powerOn (straps : BitVec 5)
  /-- R1 -/
  | runSecond
  /-- R42 -/
  | holdExpiry
  /-- R133 -/
  | noticeExpiry
  /-- R2 -/
  | clockSecond
  /-- R18 -/
  | minuteEvent
  /-- R53 -/
  | boardMinuteEvent
  /-- R43 -/
  | endNotice
  /-- R192 -/
  | hello
  /-- R193 -/
  | unitReset
  /-- R186 -/
  | unknownOrder
  /-- R5 -/
  | clockSet
  /-- R6 -/
  | clockRead
  /-- R8 -/
  | titleLoad
  /-- R9 -/
  | titleClear
  /-- R20 -/
  | showLoad
  /-- R21 -/
  | showPublish
  /-- R22 -/
  | showEdit
  /-- R23 -/
  | showDelay
  /-- R24 -/
  | showCancel
  /-- R25 -/
  | showDrop
  /-- R26 -/
  | showRead
  /-- R33 -/
  | seatHold
  /-- R34 -/
  | seatConfirm
  /-- R35 -/
  | seatRelease
  /-- R37 -/
  | seatSell
  /-- R38 -/
  | seatRefund
  /-- R39 -/
  | tallyRead
  /-- R40 -/
  | holdRead
  /-- R63 -/
  | boardSet
  /-- R64 -/
  | boardRepaint
  /-- R65 -/
  | boardRead
  /-- R73 -/
  | segmentDefine
  /-- R77 -/
  | segmentFinish
  /-- R78 -/
  | segmentRetire
  /-- R79 -/
  | segmentRead
  /-- R75 -/
  | load
  /-- R90 -/
  | reelWrite
  /-- R91 -/
  | reelClear
  /-- R92 -/
  | reelRead
  /-- R95 -/
  | reelStart
  /-- R111 -/
  | reelHalt
  /-- R113 -/
  | reelTest
  /-- R114 -/
  | portsTest
  /-- R123 -/
  | noticePost
  /-- R135 -/
  | noticeWithdraw
  /-- R136 -/
  | noticeRead
  /-- R160 -/
  | portEnable
  /-- R161 -/
  | portDisable
  /-- R162 -/
  | portReset
  /-- R164. `waitedMs`: how long the named port has been HELD or waiting in DRAINING; `sinceTakeMs`: the time since its
  last take (or its entry to READY). -/
  | portSet (waitedMs sinceTakeMs : Nat)
  /-- R174 -/
  | routeSet
  /-- R175 -/
  | routeRead
  /-- R168. `cell`: the 80 bytes at feed-in. `claimFirst`: whether the FRI takes the FEED_RESTORED claim of a restore
  before the cell itself (R179, R184: either may be first). -/
  | feedCellArrival (cell : List Byte) (claimFirst : Bool)
  /-- R180. `elapsedMs`: the time since the last valid cell. -/
  | feedLoss (elapsedMs : Nat)
  /-- R180 -/
  | ownSlot
  /-- R110 -/
  | reelEnd
  /-- R104 -/
  | reelMark
  /-- R45 -/
  | holdLapsed
  /-- R134 -/
  | noticeClosed
  /-- R84 -/
  | segmentFreed
  /-- R158 -/
  | portStalled
  /-- R158 -/
  | portRestored
  /-- R158 -/
  | panelWoken
  /-- R181 -/
  | feedRestored
  /-- R3 -/
  | dayRolled
  /-- R154 -/
  | arbiterTake (port : Port)
  /-- R157. `elapsedMs`: the time since the last take (or the entry to READY). -/
  | keepaliveTimeout (port : Port) (elapsedMs : Nat)
  /-- R141. `sinceStartUs`: the time since the start of the previous cell on the line. -/
  | cellStart (port : Port) (sinceStartUs : Nat)
  /-- R141 -/
  | cellSent (port : Port)
  /-- R142: HOLD asserted at a boundary, or during a strobe when a cell is on the line (log 14). -/
  | holdAsserted (port : Port)
  /-- R143: HOLD seen asserted in the body of the cell on the line. -/
  | slip (port : Port)
  /-- R144 -/
  | holdReleased (port : Port)
  /-- R144, R149. `elapsedMs`: the time since the wait began. -/
  | holdTimeout (port : Port) (elapsedMs : Nat)
  /-- R145. `elapsedMs`: the time since LINKING was entered. -/
  | linkTimeout (port : Port) (elapsedMs : Nat)
  /-- R148. `elapsedMs`: the time since STALLED was entered. -/
  | retryTimeout (port : Port) (elapsedMs : Nat)
  /-- R193 -/
  | resetTakenByOwner (owner : Owner)
  deriving DecidableEq, Repr

end Sys2Proof
end

