-- ==== Sys2Proof/WellFormed.lean ====
section
/-! DEFINITION. The one thing the types of Instr leave to check: a feed cell has 80 bytes (chapter 10). -/
namespace Sys2Proof

/-- A command is well formed when the cell it carries, if any, has exactly 80 bytes. Ports, owners and straps are in
range by their types, and elapsed times may be any count. -/
def Instr.wellFormed : Instr → Bool
  | .feedCellArrival cell _ => cell.length == Config.cellBytes
  | .powerOn _ | .runSecond | .holdExpiry | .noticeExpiry | .clockSecond | .minuteEvent | .boardMinuteEvent | .endNotice
  | .hello | .unitReset | .unknownOrder | .clockSet | .clockRead | .titleLoad | .titleClear | .showLoad | .showPublish
  | .showEdit | .showDelay | .showCancel | .showDrop | .showRead | .seatHold | .seatConfirm | .seatRelease | .seatSell
  | .seatRefund | .tallyRead | .holdRead | .boardSet | .boardRepaint | .boardRead | .segmentDefine | .segmentFinish
  | .segmentRetire | .segmentRead | .load | .reelWrite | .reelClear | .reelRead | .reelStart | .reelHalt | .reelTest
  | .portsTest | .noticePost | .noticeWithdraw | .noticeRead | .portEnable | .portDisable | .portReset | .portSet _ _
  | .routeSet | .routeRead | .feedLoss _ | .ownSlot | .reelEnd | .reelMark | .holdLapsed | .noticeClosed | .segmentFreed
  | .portStalled | .portRestored | .panelWoken | .feedRestored | .dayRolled | .arbiterTake _ | .keepaliveTimeout _ _
  | .cellStart _ _ | .cellSent _ | .holdAsserted _ | .slip _ | .holdReleased _ | .holdTimeout _ _ | .linkTimeout _ _
  | .retryTimeout _ _ | .resetTakenByOwner _ => true

end Sys2Proof
end

