-- ==== Sys2Proof/Decode.lean ====
section
/-! DEFINITION. The command a word of the table spells. No row of spec/opcode_table.json gives bits ("fields" is empty
in every row), so no word spells a command. The bit layouts of the cells that carry orders are in Machine/Operands.lean. -/
namespace Sys2Proof

/-- The command that the `nbits` bits of `w` spell by the bits of spec/opcode_table.json: none, for every word. -/
def decodeTableWord (_nbits _w : Nat) : Option Instr := none

end Sys2Proof
end

