-- ==== Sys2Proof/Machine/State.lean ====
section
/-! DEFINITION. The state of the unit as plain data, one structure for each block of spec/00 (TB, ST, SQ, BC, SG, RL,
PC, NQ, PP, FRI, OH), the messages under way between blocks, the waiting commands, and the state after power-on (R195). -/
namespace Sys2Proof.Machine

/-- A table with few of its places in use: the places that differ from an empty place, by rising number. -/
abbrev Tbl (α : Type) := List (Nat × α)

/-- A key of a desk: the hold key of R32 and the notice key of R119. -/
structure DeskTag where
  desk : Nat
  tag : Nat
  deriving DecidableEq, Repr

/-! ## Timebase (chapter 1) -/

/-- R2: the lobby clock. -/
inductive LobbyClock where
  | unset
  | running (minute second : Nat)
  deriving DecidableEq, Repr

/-- R3: a waiting DAY_ROLLED claim. -/
structure DayRolled where
  runSecond : Nat
  rolls : Nat
  deriving DecidableEq, Repr

/-- R1, R2, R3. -/
structure Timebase where
  runSeconds : Nat
  clock : LobbyClock
  dayRolled : Option DayRolled
  deriving DecidableEq, Repr

/-! ## Show Table and Seat Tally (chapters 1 and 2) -/

/-- R10, R201. -/
inductive Phase where
  | draft | selling | seating | running | ended | cancelled
  deriving DecidableEq, Repr

/-- R28: OPEN (`opn`), FEW, FULL. -/
inductive Avail where
  | opn | few | full
  deriving DecidableEq, Repr

/-- R10 and R27: an occupied show record with its tally fields. Effective start and free are computed (`Show.effStart`,
`Show.free`). `cancelledListed` is the result of the last listing test of a CANCELLED show (R15, log 12). -/
structure Show where
  auditorium : Nat
  title : Nat
  start : Nat
  delay : Nat
  doors : Nat
  window : Nat
  format : Nat
  capacity : Nat
  few : Nat
  band : Nat
  phase : Phase
  cancelledListed : Bool
  sold : Nat
  held : Nat
  avail : Avail
  deriving DecidableEq, Repr

/-- R7, R10: the title table and the show table; an unlisted place is empty. -/
structure ShowTable where
  titles : Tbl (List Byte)
  shows : Tbl Show
  deriving DecidableEq, Repr

/-- R32: why a hold lapsed. -/
inductive LapseCause where
  | expired | showEnded | showCancelled
  deriving DecidableEq, Repr

/-- R32. A LAPSED record is its own waiting HOLD_LAPSED claim (R45). -/
inductive HoldState where
  | live
  | lapsed (cause : LapseCause) (time : Nat)
  deriving DecidableEq, Repr

/-- R32. -/
structure Hold where
  key : DeskTag
  showNo : Nat
  seats : Nat
  deadline : Nat
  state : HoldState
  deriving DecidableEq, Repr

/-- R31: the hold table, front first. -/
structure SeatTally where
  holds : List Hold
  deriving DecidableEq, Repr

/-! ## Board Composer (chapter 3) -/

/-- R49. -/
structure Board where
  rows : Nat
  filter : AuditoriumSet
  window : Nat
  cancelledShown : Bool
  windowMinute : Option Nat
  rowList : List (Option Nat)
  pendingRows : RowSet
  deriving DecidableEq, Repr

/-- R49: board n belongs to port Pn. -/
structure BoardComposer where
  boards : Vector Board 12
  deriving DecidableEq, Repr

/-! ## Segment Table (chapter 4) -/

/-- R69, the states that reserve pages. -/
inductive SegState where
  | loading | ready | retiring
  deriving DecidableEq, Repr

/-- R69: a record in LOADING, READY or RETIRING. The pages are computed (`Segment.pages`). -/
structure Segment where
  state : SegState
  firstPage : Nat
  length : Nat
  key : Nat
  fill : Nat
  check : BitVec 32
  pins : Nat
  deriving DecidableEq, Repr

/-- R84: what an EMPTY record keeps while its SEGMENT_FREED claim waits. -/
structure FreedClaim where
  runSecond : Nat
  firstPage : Nat
  pages : Nat
  key : Nat
  deriving DecidableEq, Repr

/-- R69: a listed record reserves pages, or is EMPTY with a waiting freed claim; an unlisted one is EMPTY without one. -/
inductive SegRecord where
  | used (seg : Segment)
  | freed (claim : FreedClaim)
  deriving DecidableEq, Repr

/-- R68, R69. `content` is the content memory by byte address, place q at 64q to 64q + 63; an unlisted address holds no
defined byte. -/
structure SegmentTable where
  segs : Tbl SegRecord
  content : List Host.Cell
  deriving DecidableEq, Repr

/-! ## Reel Table and Playout Channels (chapter 5) -/

/-- R88. `gate` is the gated show number, present only with GATE on. -/
structure ReelWord where
  segment : Nat
  offset : Nat
  count : Nat
  cut : Bool
  loop : Bool
  mark : Bool
  skip : Bool
  gate : Option Nat
  deriving DecidableEq, Repr

/-- R87. -/
structure Reel where
  words : List ReelWord
  binding : Nat
  deriving DecidableEq, Repr

/-- R87; an unlisted reel has length 0 and binding count 0. -/
structure ReelTable where
  reels : Tbl Reel
  deriving DecidableEq, Repr

/-- R101: the reasons a prefetched word's pin may be refused. -/
inductive PinError where
  | segmentNotReady | keyMismatch
  deriving DecidableEq, Repr

/-- R99: the reasons of an end marker. -/
inductive MarkerReason where
  | ended | allPassed
  deriving DecidableEq, Repr

/-- R108. -/
inductive EndReason where
  | ended | halted | allPassed | segmentNotReady | keyMismatch | portStalled | portReset
  deriving DecidableEq, Repr

/-- R93: the prefetch slot. A good word holds its index, the word and the boundary note. -/
inductive Prefetch where
  | empty
  | good (index : Nat) (word : ReelWord) (crossed : Bool)
  | deferred (index : Nat) (reason : PinError)
  | marker (reason : MarkerReason)
  deriving DecidableEq, Repr

/-- R104: a waiting REEL_MARK claim; the port is the context's, the reel and tag the run's. -/
structure MarkClaim where
  wordIndex : Nat
  passes : Nat
  runSecond : Nat
  overrun : Nat
  deriving DecidableEq, Repr

/-- R93: the fields of a context in ACTIVE or SUSPENDED. -/
structure Run where
  suspended : Bool
  reel : Nat
  key : Nat
  repeatLeft : Nat
  passes : Nat
  tag : Nat
  curIndex : Nat
  cur : ReelWord
  residual : Nat
  slot : Prefetch
  cutDue : Bool
  halting : Bool
  mark : Option MarkClaim
  deriving DecidableEq, Repr

/-- R109. -/
structure StatusRecord where
  port : Port
  reel : Nat
  tag : Nat
  reason : EndReason
  lastWord : Option Nat
  residual : Nat
  passes : Nat
  failedWord : Option Nat
  lostMark : Option Nat
  endTime : Nat
  deriving DecidableEq, Repr

/-- R93: IDLE; ACTIVE or SUSPENDED with a run; STATUS_PENDING with its record. -/
inductive Context where
  | idle
  | running (run : Run)
  | statusPending (record : StatusRecord)
  deriving DecidableEq, Repr

/-- R93. -/
structure PlayoutChannels where
  contexts : Vector Context 12
  deriving DecidableEq, Repr

/-! ## Notice Queue (chapter 6) -/

/-- R119. -/
inductive Form where
  | text | takeover
  deriving DecidableEq, Repr

/-- R119: the fields of the notice's own form. -/
inductive NoticeBody where
  | text (chars : List Byte)
  | takeover (segment key : Nat)
  deriving DecidableEq, Repr

/-- R119, R124. -/
inductive ShowEffect where
  | none
  | delay (minutes : Nat)
  | cancel
  deriving DecidableEq, Repr

/-- R119. -/
structure ShowBinding where
  showNo : Nat
  effect : ShowEffect
  deriving DecidableEq, Repr

/-- R120. -/
inductive NoticeState where
  | waiting
  | shown
  | closing (time : Nat)
  deriving DecidableEq, Repr

/-- R119. `claimed`: the NOTICE_CLOSED claim of a CLOSING record has been made (R133 makes it last). -/
structure Notice where
  key : DeskTag
  priority : Nat
  body : NoticeBody
  targets : PortSet
  duration : Nat
  deadline : Option Nat
  binding : Option ShowBinding
  state : NoticeState
  claimed : Bool
  shownOn : PortSet
  firstShown : Option Nat
  deriving DecidableEq, Repr

/-- R114: the notice a slot shows, by key and form. -/
structure Shown where
  key : DeskTag
  form : Form
  deriving DecidableEq, Repr

/-- 6.3, R126, R128: a port's notice slot with its owed cells. -/
structure Slot where
  shown : Option Shown
  clearOwed : Bool
  textOwed : Bool
  cutOwed : Bool
  position : Nat
  repeatCut : Bool
  deriving DecidableEq, Repr

/-- R118. -/
structure NoticeQueue where
  notices : List Notice
  slots : Vector Slot 12
  deriving DecidableEq, Repr

/-! ## Panel Ports (chapter 7) -/

/-- R140. -/
inductive PortState where
  | off | linking | ready | held | stalled | draining
  deriving DecidableEq, Repr

/-- R140. -/
inductive PanelMode where
  | live | quiet | dark
  deriving DecidableEq, Repr

/-- R140. The panel mode and the mode setting are one value. -/
structure PortSettings where
  mode : PanelMode
  gap : Nat
  spacing : Nat
  holdTimeout : Nat
  keepAlive : Nat
  slipCheck : Bool
  wakeLevel : Nat
  deriving DecidableEq, Repr

/-- R59: the show fields of a strip cell. -/
structure StripShow where
  showNo : Nat
  auditorium : Nat
  title : List Byte
  effStart : Nat
  delay : Nat
  phase : Phase
  format : Nat
  free : Nat
  avail : Avail
  deriving DecidableEq, Repr

/-- R200: the eight kinds of panel cell, with what fills their payloads. -/
inductive PanelCell where
  | link
  | keepalive
  | strip (row rows : Nat) (shown : Option StripShow)
  | noticeText (key : DeskTag) (priority : Nat) (chars : List Byte)
  | noticeClear
  | picture (payload : List Byte)
  | cut
  | dark
  deriving DecidableEq, Repr

/-- R140, R141, R200: a staged cell, built, with its note of source, CONTEXT or absent. -/
structure Staged where
  cell : List Byte
  fromContext : Bool
  deriving DecidableEq, Repr

/-- R140, R157: the keep-alive timer, stopped, running or run out. -/
inductive KeepAlive where
  | stopped | running | ranOut
  deriving DecidableEq, Repr

/-- R147: restore due, when it is on. -/
structure RestoreDue where
  stallTime : Nat
  retries : Nat
  deriving DecidableEq, Repr

/-- R147. -/
inductive StallCause where
  | holdTimeout | linkTimeout
  deriving DecidableEq, Repr

/-- R159: what a port-event claim carries beyond port, occurrence count, state and mode. -/
inductive PortEvent where
  | stalled (cause : StallCause) (stalledFrom : PortState) (time : Nat)
  | restored (stallTime restoreTime retries : Nat)
  | woken (key : DeskTag) (priority time : Nat)
  deriving DecidableEq, Repr

/-- R158. -/
structure PortClaim where
  event : PortEvent
  occurrences : Nat
  deriving DecidableEq, Repr

/-- R140, with the HOLD line and what R142, R145 and R164 need of the line's past. `boundaryHold`: HOLD was asserted in
the present boundary or strobe. `linkSent`: a LINK cell's strobe has ended since LINKING was entered. `liveChoices`: the model's own
count of the free choices the port has met (log 34). `slipArmed`: slip check as it stood when the cell on the line started.
`started`: a cell has started on the line. `strobed`: the last cell whose strobe ended. In HELD, and in DRAINING while it waits on HOLD, the hold timer runs. -/
structure PortRec where
  state : PortState
  settings : PortSettings
  nextPlace : Option Staged
  sendingPlace : Option Staged
  live : List (List Byte)
  liveGap : Bool
  liveChoices : Nat
  spacing : Nat
  darkOwed : Bool
  linkCount : Nat
  restoreDue : Option RestoreDue
  linkTimer : Bool
  holdTimer : Bool
  retryTimer : Bool
  keepAlive : KeepAlive
  claims : List PortClaim
  hold : Bool
  boundaryHold : Bool
  linkSent : Bool
  slipArmed : Bool
  started : Bool
  strobed : Option (List Byte)
  deriving DecidableEq, Repr

/-- R140. -/
structure PanelPorts where
  ports : Vector PortRec 12
  deriving DecidableEq, Repr

/-! ## Feed Ring Interface and Order Handler (chapters 8 and 9) -/

/-- One field of a reply or report (R199): `num width value`, or the step to a byte boundary before reel words. -/
inductive Fld where
  | num (width value : Nat)
  | align
  deriving DecidableEq, Repr

/-- R189. -/
inductive ReplyOutcome where
  | accepted | status | busy | unavailable
  deriving DecidableEq, Repr

/-- R189, R201. -/
inductive Reason where
  | none | badCell | unknownOrder | badAddress | badField | noSuchShow | noSuchTitle | titleInUse | wrongPhase
  | notEnoughSeats | holdExists | noSuchHold | holdLapsed | tableFull | keyMismatch | segmentState | pageOverlap
  | outOfRange | gap | reelBound | reelEmpty | portState | portInRoute | wakeNotice | noticeExists | noSuchNotice
  | clockUnset
  deriving DecidableEq, Repr

/-- R189, 10.2: a reply, before it is laid out in its cell. The source unit address stands in the cell's header. -/
structure Reply where
  code : Nat
  tag : Nat
  desk : Nat
  unchecked : Bool
  outcome : ReplyOutcome
  reason : Reason
  placed : Nat
  body : List Fld
  deriving DecidableEq, Repr

/-- R196. -/
inductive ReportKind where
  | reelEnd | reelMark | holdLapsed | noticeClosed | segmentFreed | portStalled | portRestored | panelWoken
  | feedRestored | dayRolled
  deriving DecidableEq, Repr

/-- R196, 10.2: a report, before it is laid out in its cell. -/
structure Report where
  kind : ReportKind
  built : Nat
  body : List Fld
  deriving DecidableEq, Repr

/-- A queued cell of the reply queue (R177). -/
inductive OutMsg where
  | reply (r : Reply)
  | report (r : Report)
  deriving DecidableEq, Repr

/-- R181: a waiting FEED_RESTORED claim. -/
structure RestoredClaim where
  lossTime : Nat
  restoreTime : Nat
  lost : Nat
  occurrences : Nat
  deriving DecidableEq, Repr

/-- R180. -/
inductive FeedState where
  | up | lost
  deriving DecidableEq, Repr

/-- R167–R183. Feed cells are their 80 bytes. `bounced`: cells a UNIT RESET bounced, waiting for a free slot (R183); more than one
only in states no run reaches (log 26).
`feedOut`: the slot sent last. -/
structure FeedRing where
  address : BitVec 5
  feed : FeedState
  lossTimer : Bool
  lossTime : Option Nat
  intake : List (List Byte)
  queue : List OutMsg
  reservations : Nat
  routes : Tbl PortSet
  restored : Option RestoredClaim
  bounced : List (List Byte)
  feedOut : Option (List Byte)
  deriving DecidableEq, Repr

/-- R191. -/
inductive ResetCause where
  | power | unitReset
  deriving DecidableEq, Repr

/-- R193: a UNIT RESET under way: the owners that have not yet taken it, and what its reply will carry once the FRI has taken
its part. -/
structure ResetProgress where
  owners : List Owner
  discarded : Nat
  bouncedKind : Option Nat
  deriving DecidableEq, Repr

/-- R191, R193. -/
structure OrderHandler where
  cause : ResetCause
  previous : Option ResetCause
  resetTime : Nat
  reset : Option ResetProgress
  deriving DecidableEq, Repr

/-- Messages under way between blocks, oldest first: run-second events to the Seat Tally and the Notice Queue (R1),
minute events to the Show Table and the Board Composer (R2, R5), end notices to the Seat Tally (R14). -/
structure Paths where
  tallySeconds : List Nat
  noticeSeconds : List Nat
  showMinutes : List Nat
  boardMinutes : List Nat
  endNotices : List (Nat × LapseCause)
  deriving DecidableEq, Repr

/-- The unit. `epoch` numbers the power-ons (log 5); `pending` is the queue of commands, first in first out. -/
structure State where
  tb : Timebase
  paths : Paths
  st : ShowTable
  sq : SeatTally
  bc : BoardComposer
  sg : SegmentTable
  rl : ReelTable
  pc : PlayoutChannels
  nq : NoticeQueue
  pp : PanelPorts
  fri : FeedRing
  oh : OrderHandler
  epoch : Nat
  pending : List Instr
  deriving DecidableEq, Repr

/-- Why a step stops with a fault. The manual describes none: a refused order is answered with a reason. -/
inductive Fault where
  /-- Raised by FEED_CELL_ARRIVAL alone, for a "cell" that has not 80 bytes and so is no cell of the ring (chapter 10).
  Safe: the model stops at a command the hardware cannot meet (log 24). -/
  | malformedCommand
  deriving DecidableEq, Repr

/-- Why a step has no meaning. -/
inductive Refusal where
  /-- For an arm of exec whose instruction has no meaning yet; no arm raises it. Safe. -/
  | notModelled (mnemonic : String)
  deriving DecidableEq, Repr

/-! ## Power-on (R195) and reset values -/

/-- R50. -/
def Board.initial : Board :=
  { rows := 0, filter := BitVec.allOnes 24, window := 0, cancelledShown := true, windowMinute := none, rowList := [],
    pendingRows := 0 }

/-- R118, R139. -/
def Slot.initial : Slot :=
  { shown := none, clearOwed := false, textOwed := false, cutOwed := false, position := 0, repeatCut := false }

/-- R140, last column. -/
def PortSettings.initial : PortSettings :=
  { mode := .live, gap := 0, spacing := 3, holdTimeout := 3, keepAlive := 4, slipCheck := true, wakeLevel := 2 }

/-- R140, last column; `hold` is the level of the HOLD line, which power-on does not set. -/
def PortRec.initial (hold : Bool) : PortRec :=
  { state := .off, settings := .initial, nextPlace := none, sendingPlace := none, live := [], liveGap := true, liveChoices := 0,
    spacing := 0, darkOwed := false, linkCount := 0, restoreDue := none, linkTimer := false, holdTimer := false,
    retryTimer := false, keepAlive := .stopped, claims := [], hold := hold, boundaryHold := false, linkSent := false,
    slipArmed := false, started := false, strobed := none }

/-- R182. -/
def FeedRing.initial (straps : BitVec 5) : FeedRing :=
  { address := straps, feed := .lost, lossTimer := false, lossTime := none, intake := [], queue := [],
    reservations := 0, routes := [], restored := none, bounced := [], feedOut := none }

/-- R195: every owner at its power-on values, with the given straps and levels of the HOLD lines. -/
def State.atPowerOn (straps : BitVec 5) (holdLines : Vector Bool 12) (epoch : Nat) : State :=
  { tb := { runSeconds := 0, clock := .unset, dayRolled := none }
    paths := { tallySeconds := [], noticeSeconds := [], showMinutes := [], boardMinutes := [], endNotices := [] }
    st := { titles := [], shows := [] }
    sq := { holds := [] }
    bc := { boards := Vector.replicate 12 .initial }
    sg := { segs := [], content := [] }
    rl := { reels := [] }
    pc := { contexts := Vector.replicate 12 .idle }
    nq := { notices := [], slots := Vector.replicate 12 .initial }
    pp := { ports := holdLines.map PortRec.initial }
    fri := .initial straps
    oh := { cause := .power, previous := none, resetTime := 0, reset := none }
    epoch := epoch
    pending := [] }

/-- The unit right after power-on (R195). Straps 0 and released HOLD lines are DESIGN CHOICES (log 4). -/
def State.reset : State := .atPowerOn 0 (Vector.replicate 12 false) 0

end Sys2Proof.Machine
end

