-- ==== Sys2Proof/Machine/Ops.lean ====
section
/-! DEFINITION. The named operations over the tables, the content memory, the per-port records and the queue: every
read and write of State by the meanings goes through these. -/
namespace Sys2Proof.Machine

/-! ## Sparse tables: rising keys, one entry a key -/

/-- The entry at place `k`, or none for an empty place. -/
def Tbl.get {α : Type} : Tbl α → Nat → Option α
  | [], _ => none
  | (k', v) :: t, k => if k' = k then some v else Tbl.get t k

/-- Fill place `k` with `v`, keeping the keys rising. -/
def Tbl.put {α : Type} : Tbl α → Nat → α → Tbl α
  | [], k, v => [(k, v)]
  | (k', v') :: t, k, v =>
    if k < k' then (k, v) :: (k', v') :: t
    else if k = k' then (k, v) :: t
    else (k', v') :: Tbl.put t k v

/-- Empty place `k`. -/
def Tbl.erase {α : Type} : Tbl α → Nat → Tbl α
  | [], _ => []
  | (k', v') :: t, k => if k' = k then Tbl.erase t k else (k', v') :: Tbl.erase t k

/-- Every key of the table is above `k`. -/
def Tbl.above {α : Type} (k : Nat) : Tbl α → Bool
  | [] => true
  | (k', _) :: t => decide (k < k') && Tbl.above k t

/-- The canonical form: keys strictly rising. -/
def Tbl.wf {α : Type} : Tbl α → Bool
  | [] => true
  | (k, _) :: t => Tbl.above k t && Tbl.wf t

/-- The entry at `k` of a table whose empty places read as `d`. -/
def Tbl.getD {α : Type} (t : Tbl α) (k : Nat) (d : α) : α := (Tbl.get t k).getD d

/-- Write `v` at `k` of a table whose empty places read as `d`: writing `d` empties the place, so that equal tables are
equal lists. -/
def Tbl.putD {α : Type} [DecidableEq α] (t : Tbl α) (k : Nat) (d v : α) : Tbl α :=
  if v = d then Tbl.erase t k else Tbl.put t k v

/-! ## The content memory (R68) -/

/-- The canonical form of the content memory: addresses strictly rising. An unlisted address reads as no byte, so no
entry can equal what an unlisted address reads as. -/
def Memory.wf (m : List Host.Cell) : Bool := Tbl.wf m

/-- What one byte address holds: none while nothing has written it since power-on (R68, log 5). -/
def Memory.read (m : List Host.Cell) (a : Nat) : Option Byte := Tbl.get m a

/-- Write one byte. -/
def Memory.write (m : List Host.Cell) (a : Nat) (b : Byte) : List Host.Cell := Tbl.put m a b

/-- Write bytes at rising addresses from `a`. -/
def Memory.writeBytes (m : List Host.Cell) (a : Nat) : List Byte → List Host.Cell
  | [] => m
  | b :: bs => Memory.writeBytes (Memory.write m a b) (a + 1) bs

/-! ## Port sets and lists of ports -/

/-- P0 to P11, lowest first. -/
def allPorts : List Port := [0, 1, 2, 3, 4, 5, 6, 7, 8, 9, 10, 11]

/-- Whether port `p` stands in the set. -/
def PortSet.has (ps : PortSet) (p : Port) : Bool := ps.getLsbD p.val

/-- The set with port `p` in it. -/
def PortSet.add (ps : PortSet) (p : Port) : PortSet := ps ||| (1#12 <<< p.val)

/-- The members of a port set, lowest first. -/
def PortSet.members (ps : PortSet) : List Port := allPorts.filter (PortSet.has ps)

/-- The set of the ports that satisfy `f`. -/
def PortSet.ofPred (f : Port → Bool) : PortSet :=
  allPorts.foldl (fun ps p => if f p then PortSet.add ps p else ps) 0

/-- Do `f` for each port of the list, in order. -/
def State.forPorts (s : State) (ps : List Port) (f : Port → State → State) : State :=
  ps.foldl (fun t p => f p t) s

/-! ## Records of one port -/

/-- The port record of `p` (R140). -/
def State.port (s : State) (p : Port) : PortRec := s.pp.ports[p]
/-- Write the port record of `p`. -/
def State.setPort (s : State) (p : Port) (r : PortRec) : State :=
  { s with pp := { ports := s.pp.ports.set p.val r p.isLt } }

/-- The playout context of `p` (R93). -/
def State.ctx (s : State) (p : Port) : Context := s.pc.contexts[p]
/-- Write the playout context of `p`. -/
def State.setCtx (s : State) (p : Port) (c : Context) : State :=
  { s with pc := { contexts := s.pc.contexts.set p.val c p.isLt } }

/-- The notice slot of `p` (6.3). -/
def State.slot (s : State) (p : Port) : Slot := s.nq.slots[p]
/-- Write the notice slot of `p`. -/
def State.setSlot (s : State) (p : Port) (x : Slot) : State :=
  { s with nq := { s.nq with slots := s.nq.slots.set p.val x p.isLt } }

/-- The board of `p` (R49). -/
def State.board (s : State) (p : Port) : Board := s.bc.boards[p]
/-- Write the board of `p`. -/
def State.setBoard (s : State) (p : Port) (b : Board) : State :=
  { s with bc := { boards := s.bc.boards.set p.val b p.isLt } }

/-! ## Shows, titles, segments, reels, routes -/

/-- R10: effective start. -/
def Show.effStart (x : Show) : Nat := x.start + x.delay
/-- R27: free = capacity − sold − held. -/
def Show.free (x : Show) : Nat := x.capacity - x.sold - x.held

/-- The record in show slot `n`, or none for an EMPTY slot. -/
def State.showAt (s : State) (n : Nat) : Option Show := Tbl.get s.st.shows n
/-- Write the record in show slot `n`. -/
def State.setShow (s : State) (n : Nat) (x : Show) : State := { s with st := { s.st with shows := Tbl.put s.st.shows n x } }
/-- Empty show slot `n`. -/
def State.clearShow (s : State) (n : Nat) : State := { s with st := { s.st with shows := Tbl.erase s.st.shows n } }
/-- The text of title `n`, or none for an empty place (R7). -/
def State.titleAt (s : State) (n : Nat) : Option (List Byte) := Tbl.get s.st.titles n

/-- R69: pages = length ÷ 64, rounded up. -/
def pagesFor (length : Nat) : Nat := (length + Config.placesPerPage - 1) / Config.placesPerPage
/-- The pages a segment reserves (R72). -/
def Segment.pages (g : Segment) : Nat := pagesFor g.length

/-- The segment record of number `n` when it is not EMPTY. -/
def State.segAt (s : State) (n : Nat) : Option Segment :=
  match Tbl.get s.sg.segs n with
  | some (.used g) => some g
  | some (.freed _) => none
  | none => none
/-- The freed claim that waits in the EMPTY record `n`. -/
def State.freedAt (s : State) (n : Nat) : Option FreedClaim :=
  match Tbl.get s.sg.segs n with
  | some (.freed c) => some c
  | some (.used _) => none
  | none => none
/-- Write the segment record `n`. -/
def State.setSeg (s : State) (n : Nat) (r : SegRecord) : State := { s with sg := { s.sg with segs := Tbl.put s.sg.segs n r } }
/-- Make the segment record `n` EMPTY without a claim. -/
def State.emptySeg (s : State) (n : Nat) : State := { s with sg := { s.sg with segs := Tbl.erase s.sg.segs n } }

/-- R87: an empty reel. -/
def Reel.initial : Reel := { words := [], binding := 0 }
/-- Reel `n` (R87). -/
def State.reelAt (s : State) (n : Nat) : Reel := Tbl.getD s.rl.reels n .initial
/-- Write reel `n`. -/
def State.setReel (s : State) (n : Nat) (r : Reel) : State := { s with rl := { reels := Tbl.putD s.rl.reels n .initial r } }

/-- The port set of route-table entry `n` (R173). -/
def State.routeAt (s : State) (n : Nat) : PortSet := Tbl.getD s.fri.routes n 0
/-- Write route-table entry `n`. -/
def State.setRoute (s : State) (n : Nat) (ps : PortSet) : State :=
  { s with fri := { s.fri with routes := Tbl.putD s.fri.routes n 0 ps } }

/-! ## Boards: marking rows (R56) -/

/-- Mark row `i` pending. -/
def RowSet.mark (x : RowSet) (i : Nat) : RowSet := x ||| (1#16 <<< i)
/-- Take row `i` out of the pending set. -/
def RowSet.unmark (x : RowSet) (i : Nat) : RowSet := x &&& ~~~(1#16 <<< i)
/-- Every row index from 0 to rows − 1. -/
def RowSet.allRows (rows : Nat) : RowSet := (List.range rows).foldl RowSet.mark 0
/-- The lowest row index of the set below `rows` (R58). -/
def RowSet.lowest (x : RowSet) (rows : Nat) : Option Nat := (List.range rows).find? (fun i => x.getLsbD i)
/-- R57, R64: mark every row of a board. -/
def Board.repaint (b : Board) : Board := { b with pendingRows := RowSet.allRows b.rows }

/-- R57: the Board Composer marks every row of the port's board pending. -/
def State.repaint (s : State) (p : Port) : State := s.setBoard p (s.board p).repaint

/-! ## Times, the clock, UNIT RESET -/

/-- The run-second count (R1). -/
def State.now (s : State) : Nat := s.tb.runSeconds

/-- The lobby minute as it is read: 0 while UNSET (R2, R15). -/
def LobbyClock.minute : LobbyClock → Nat
  | .unset => 0
  | .running m _ => m
/-- The lobby second as it is read: 0 while UNSET (R2). -/
def LobbyClock.second : LobbyClock → Nat
  | .unset => 0
  | .running _ x => x
/-- Whether the clock is RUNNING. -/
def LobbyClock.isRunning : LobbyClock → Bool
  | .unset => false
  | .running _ _ => true

/-- Whether a UNIT RESET is under way and `o` has already taken it (R50, R85, R87, R193). -/
def State.resetTaken (s : State) (o : Owner) : Bool :=
  match s.oh.reset with
  | some r => !r.owners.contains o
  | none => false

/-- R167: a strap value of 30 or 31 gives the unit no address. -/
def State.addressed (s : State) : Bool := decide (s.fri.address.toNat < Config.serverAddress)

/-! ## Queue -/

/-- Put a command in front of the queue of commands. -/
def State.pushFront (s : State) (c : Instr) : State := { s with pending := c :: s.pending }

end Sys2Proof.Machine
end

