-- ==== Sys2Proof/Machine/Flags.lean ====
section
/-! DEFINITION. The codes of R201, the availability of R28, the phase order of R13 and the small tests every family
shares. -/
namespace Sys2Proof.Machine

/-! ## Codes (R201) -/

def Phase.code : Phase → Nat
  | .draft => 0 | .selling => 1 | .seating => 2 | .running => 3 | .ended => 4 | .cancelled => 5
def Avail.code : Avail → Nat
  | .opn => 0 | .few => 1 | .full => 2
def LobbyClock.code : LobbyClock → Nat
  | .unset => 0 | .running _ _ => 1
def FeedState.code : FeedState → Nat
  | .up => 0 | .lost => 1
def ResetCause.code : ResetCause → Nat
  | .power => 1 | .unitReset => 2
/-- The previous cause, with NONE at 0 (R191, R201). -/
def previousCode : Option ResetCause → Nat
  | none => 0
  | some c => c.code
def HoldState.code : HoldState → Nat
  | .live => 0 | .lapsed _ _ => 1
def LapseCause.code : LapseCause → Nat
  | .expired => 0 | .showEnded => 1 | .showCancelled => 2
def SegState.code : SegState → Nat
  | .loading => 1 | .ready => 2 | .retiring => 3
def Context.code : Context → Nat
  | .idle => 0
  | .running r => if r.suspended then 2 else 1
  | .statusPending _ => 3
def EndReason.code : EndReason → Nat
  | .ended => 0 | .halted => 1 | .allPassed => 2 | .segmentNotReady => 3 | .keyMismatch => 4 | .portStalled => 5
  | .portReset => 6
def Form.code : Form → Nat
  | .text => 0 | .takeover => 1
def NoticeState.code : NoticeState → Nat
  | .waiting => 0 | .shown => 1 | .closing _ => 2
def ShowEffect.code : ShowEffect → Nat
  | .none => 0 | .delay _ => 1 | .cancel => 2
def PortState.code : PortState → Nat
  | .off => 0 | .linking => 1 | .ready => 2 | .held => 3 | .stalled => 4 | .draining => 5
def PanelMode.code : PanelMode → Nat
  | .live => 0 | .quiet => 1 | .dark => 2
/-- A panel mode code; any other code names nothing (R163). -/
def PanelMode.ofCode : Nat → Option PanelMode
  | 0 => some .live
  | 1 => some .quiet
  | 2 => some .dark
  | _ => none
def StallCause.code : StallCause → Nat
  | .holdTimeout => 0 | .linkTimeout => 1
def ReplyOutcome.code : ReplyOutcome → Nat
  | .accepted => 0 | .status => 1 | .busy => 2 | .unavailable => 3
def Reason.code : Reason → Nat
  | .none => 0 | .badCell => 1 | .unknownOrder => 2 | .badAddress => 3 | .badField => 4 | .noSuchShow => 5
  | .noSuchTitle => 6 | .titleInUse => 7 | .wrongPhase => 8 | .notEnoughSeats => 9 | .holdExists => 10
  | .noSuchHold => 11 | .holdLapsed => 12 | .tableFull => 13 | .keyMismatch => 14 | .segmentState => 15
  | .pageOverlap => 16 | .outOfRange => 17 | .gap => 18 | .reelBound => 19 | .reelEmpty => 20 | .portState => 21
  | .portInRoute => 22 | .wakeNotice => 23 | .noticeExists => 24 | .noSuchNotice => 25 | .clockUnset => 26
def ReportKind.code : ReportKind → Nat
  | .reelEnd => 1 | .reelMark => 2 | .holdLapsed => 3 | .noticeClosed => 4 | .segmentFreed => 5 | .portStalled => 6
  | .portRestored => 7 | .panelWoken => 8 | .feedRestored => 9 | .dayRolled => 10

/-- Order codes (R201). -/
def orderCodes : List Nat :=
  [0x01, 0x02, 0x08, 0x09, 0x10, 0x11, 0x12, 0x13, 0x14, 0x15, 0x16, 0x17, 0x18, 0x20, 0x21, 0x22, 0x23, 0x24, 0x25, 0x26,
   0x30, 0x31, 0x32, 0x40, 0x41, 0x42, 0x43, 0x50, 0x51, 0x52, 0x53, 0x54, 0x55, 0x56, 0x60, 0x61, 0x62,
   0x70, 0x71, 0x72, 0x73, 0x78, 0x79]

/-- The 49 characters of titles and notice texts (R201). -/
def charOk (b : Byte) : Bool :=
  let c := b.toNat
  c == 0x20 || (0x30 ≤ c && c ≤ 0x39) || (0x41 ≤ c && c ≤ 0x5A) ||
    [0x21, 0x26, 0x27, 0x28, 0x29, 0x2B, 0x2C, 0x2D, 0x2E, 0x2F, 0x3A, 0x3F].contains c

/-! ## Shows -/

/-- R28: availability from the new free count, the few level, the band and the availability before. -/
def Avail.recompute (free few band : Nat) (before : Avail) : Avail :=
  if free = 0 then .full
  else if free ≤ few then .few
  else if free > few + band then .opn
  else match before with
    | .full => .few
    | .few => .few
    | .opn => .opn

/-- R29: the show with its availability recomputed from its counts. -/
def Show.retally (x : Show) : Show := { x with avail := Avail.recompute x.free x.few x.band x.avail }

/-- SELLING, SEATING or RUNNING: the phases evaluation moves and seat orders accept (R13, R33, R37). -/
def Phase.isOpen : Phase → Bool
  | .selling | .seating | .running => true
  | .draft | .ended | .cancelled => false

/-- The place of a phase in the order SELLING, SEATING, RUNNING, ENDED (R13). -/
def Phase.rank : Phase → Nat
  | .draft => 0 | .selling => 1 | .seating => 2 | .running => 3 | .ended => 4 | .cancelled => 5

/-- R13: the phase that fits a minute. A doors lead that exceeds the effective start gives threshold 0, as the
subtraction on Nat does. -/
def Show.fitting (x : Show) (minute : Nat) : Phase :=
  if minute ≥ x.effStart + x.window then .ended
  else if minute ≥ x.effStart then .running
  else if minute ≥ x.effStart - x.doors then .seating
  else .selling

/-- R12, R13: evaluation moves the phase forward only, and leaves DRAFT, ENDED and CANCELLED as they are. -/
def Show.evaluate (x : Show) (minute : Nat) : Show :=
  if x.phase.isOpen && decide (x.phase.rank < (x.fitting minute).rank) then { x with phase := x.fitting minute } else x

/-- R15, second case: whether a CANCELLED show is listed at a minute. -/
def Show.listedCancelled (x : Show) (minute : Nat) : Bool := decide (minute < x.effStart + x.window)

/-- R15 at a given minute. -/
def Show.listedAt (x : Show) (minute : Nat) : Bool :=
  x.phase.isOpen || (decide (x.phase = .cancelled) && x.listedCancelled minute)

/-- R15 as the Show Table last tested it (log 12): what a board's qualification reads. -/
def Show.listed (x : Show) : Bool :=
  x.phase.isOpen || (decide (x.phase = .cancelled) && x.cancelledListed)

/-- R15: the listing of a CANCELLED show tested again at a minute. -/
def Show.retest (x : Show) (minute : Nat) : Show :=
  if x.phase = .cancelled then { x with cancelledListed := x.listedCancelled minute } else x

/-- R16. -/
def Show.gateOpen (x : Show) : Bool :=
  (decide (x.phase = .selling) || decide (x.phase = .seating)) && decide (x.avail ≠ .full)

/-- R16: the gate test of a show number; an EMPTY slot is not gate-open. -/
def State.gateOpen (s : State) (n : Nat) : Bool :=
  match s.showAt n with
  | some x => x.gateOpen
  | none => false

/-! ## Keys, ports, notices -/

/-- R70: whether a request with key `k` may use a segment of key `segKey`. -/
def keyPasses (k segKey : Nat) : Bool := decide (k = 0) || decide (k = segKey)

/-- R94: OFF, DRAINING and STALLED are unavailable to the reel orders. -/
def PortState.available : PortState → Bool
  | .linking | .ready | .held => true
  | .off | .draining | .stalled => false

/-- R125: a port eligible for notices. -/
def PortRec.eligible (r : PortRec) : Bool := r.state.available && decide (r.settings.mode ≠ .dark)

/-- The form of a notice (R119). -/
def Notice.form (n : Notice) : Form :=
  match n.body with
  | .text _ => .text
  | .takeover _ _ => .takeover

/-- WAITING or SHOWN (R120). -/
def NoticeState.isOpen : NoticeState → Bool
  | .waiting | .shown => true
  | .closing _ => false

/-- Whether a slot shows a TAKEOVER. -/
def Slot.takeover (x : Slot) : Bool :=
  match x.shown with
  | some n => decide (n.form = .takeover)
  | none => false

/-- Whether the hold of a record is LIVE. -/
def HoldState.isLive : HoldState → Bool
  | .live => true
  | .lapsed _ _ => false

/-- R113: an IDLE context. -/
def Context.isIdle : Context → Bool
  | .idle => true
  | .running _ => false
  | .statusPending _ => false

/-- R153: whether a port's picture is open. -/
def State.pictureOpen (s : State) (p : Port) : Bool :=
  (decide ((s.port p).state = .ready) || decide ((s.port p).state = .held)) && decide ((s.port p).settings.mode = .live)
    && (s.ctx p).isIdle && !(s.slot p).takeover

/-- R141: whether a place of the port's staging holds a cell noted CONTEXT. -/
def PortRec.contextStaged (r : PortRec) : Bool :=
  (match r.nextPlace with | some c => c.fromContext | none => false) ||
    (match r.sendingPlace with | some c => c.fromContext | none => false)

end Sys2Proof.Machine
end

