-- ==== Sys2Proof/Machine/Operands.lean ====
section
/-! DEFINITION. The cells of chapter 10: check words, headers, the fields an order carries, and the layout of replies,
reports and panel cells. -/
namespace Sys2Proof.Machine

/-! ## Bytes and numbers -/

/-- Bytes as one number, most significant first (chapter 10). -/
def natOfBytes (bs : List Byte) : Nat := bs.foldl (fun a b => a * 256 + b.toNat) 0

/-- The low `n` bytes of a number, most significant first. -/
def bytesOfNat (n v : Nat) : List Byte := (List.range n).map fun i => BitVec.ofNat 8 (v / 256 ^ (n - 1 - i))

/-- Byte `i` of a cell as a number. -/
def byteAt (c : List Byte) (i : Nat) : Nat := (c.getD i 0).toNat

/-- The check word register after one message bit (R197). -/
def checkBit (r : BitVec 16) (b : Bool) : BitVec 16 := if r.msb != b then (r <<< 1) ^^^ 0x1021#16 else r <<< 1

/-- The check word register after one byte, bit 7 first (R197). -/
def checkByte (r : BitVec 16) (x : Byte) : BitVec 16 :=
  [7, 6, 5, 4, 3, 2, 1, 0].foldl (fun a i => checkBit a (x.getLsbD i)) r

/-- R197: the check word over bytes. -/
def checkWord (bs : List Byte) : BitVec 16 := bs.foldl checkByte (BitVec.allOnes 16)

/-! ## Feed cells (10.1) -/

def cellKind (c : List Byte) : Nat := byteAt c 0
def cellOriginal (c : List Byte) : Nat := byteAt c 1
def cellDest (c : List Byte) : Nat := byteAt c 2
def cellSource (c : List Byte) : Nat := byteAt c 3
/-- LOAD: bytes 4–5. -/
def cellSegment (c : List Byte) : Nat := byteAt c 4 * 256 + byteAt c 5
/-- LIVE: byte 4. -/
def cellChannel (c : List Byte) : Nat := byteAt c 4
/-- LOAD: bytes 6–8. -/
def cellIndex (c : List Byte) : Nat := (byteAt c 6 * 256 + byteAt c 7) * 256 + byteAt c 8
/-- LOAD: byte 9. -/
def cellKey (c : List Byte) : Nat := byteAt c 9
/-- The 64 payload bytes. -/
def cellPayload (c : List Byte) : List Byte := c.drop 16

/-- Feed cell kind codes (10.1). -/
def kindIdle : Nat := 0
def kindOrder : Nat := 1
def kindLoad : Nat := 2
def kindLive : Nat := 3
def kindReply : Nat := 4
def kindReport : Nat := 5
def kindBounced : Nat := 6

/-- R198: the header check. -/
def headerOk (c : List Byte) : Bool :=
  decide ((checkWord (c.take 14)).toNat = byteAt c 14 * 256 + byteAt c 15) && decide (cellKind c ≤ 6)
    && decide (cellDest c ≤ 31) && decide (cellSource c ≤ 31)
    && (if cellKind c = kindBounced then decide (cellOriginal c = 1) || decide (cellOriginal c = 2)
        else decide (cellOriginal c = 0))

/-- R197, R186: the payload check. -/
def payloadOk (c : List Byte) : Bool :=
  decide ((checkWord (cellPayload c)).toNat = byteAt c 12 * 256 + byteAt c 13)

/-- Fourteen header bytes with their check word behind them, and a payload. -/
def sealCell (header payload : List Byte) : List Byte := header ++ bytesOfNat 2 (checkWord header).toNat ++ payload

/-- R198: a cell the unit builds. -/
def ownCell (kind : Nat) (unit : BitVec 5) (payload : List Byte) : List Byte :=
  sealCell (bytesOfNat 1 kind ++ bytesOfNat 1 0 ++ bytesOfNat 1 Config.serverAddress ++ bytesOfNat 1 unit.toNat
    ++ bytesOfNat 8 0 ++ bytesOfNat 2 (checkWord payload).toNat) payload

/-- 64 zero bytes. -/
def zeroPayload : List Byte := List.replicate Config.payloadBytes 0

/-- R198: an IDLE cell. -/
def idleCell (unit : BitVec 5) : List Byte := ownCell kindIdle unit zeroPayload

/-- R169, R198: a cell made BOUNCED; every byte but kind, original kind and header check word is as it arrived. -/
def bounceCell (c : List Byte) : List Byte :=
  sealCell (bytesOfNat 1 kindBounced ++ bytesOfNat 1 (cellKind c) ++ (c.drop 2).take 12) (cellPayload c)

/-! ## The fields of an order (10.2, R199) -/

/-- R185: the common part of an order. -/
structure OrderHead where
  code : Nat
  tag : Nat
  desk : Nat
  key : Nat
  guard : Bool
  deriving DecidableEq, Repr

/-- The common part as the payload carries it (10.2). -/
def orderHead (c : List Byte) : OrderHead :=
  let p := cellPayload c
  { code := byteAt p 0, tag := byteAt p 1 * 256 + byteAt p 2, desk := byteAt p 3, key := byteAt p 4,
    guard := (p.getD 5 0).getLsbD 0 }

/-- The payload as one number of 512 bits, the first bit most significant. -/
def payloadNat (c : List Byte) : Nat := natOfBytes (cellPayload c)

/-- The field of `w` bits at bit position `pos` of a payload number (R199 item 2). -/
def fieldAt (pay pos w : Nat) : Nat := pay / 2 ^ (512 - pos - w) % 2 ^ w

/-- Consecutive fields of the given widths. -/
def fieldsAt (pay pos : Nat) : List Nat → List Nat
  | [] => []
  | w :: ws => fieldAt pay pos w :: fieldsAt pay (pos + w) ws

/-- The first bit after the common order part. -/
def ownBits : Nat := 48

/-- The own fields of an order, of the given widths. -/
def orderFields (c : List Byte) (widths : List Nat) : List Nat := fieldsAt (payloadNat c) ownBits widths

/-- The characters of a text of `len` characters at bit position `pos` (R199 item 8). -/
def textAt (pay pos len : Nat) : List Byte := (List.range len).map fun i => BitVec.ofNat 8 (fieldAt pay (pos + 8 * i) 8)

/-- A port set from its 12 bits, P0 first (R199 item 5). -/
def PortSet.ofBits (v : Nat) : PortSet := PortSet.ofPred fun p => v.testBit (11 - p.val)

/-- A filter from its 24 bits, auditorium 1 first (R199 item 6). -/
def AuditoriumSet.ofBits (v : Nat) : AuditoriumSet := (BitVec.ofNat 24 v).reverse

/-! ## The fields of a reply or report (R199) -/

/-- R199 item 4: a field that may be absent. -/
def Fld.opt (w : Nat) : Option Nat → List Fld
  | none => [.num 1 0]
  | some v => [.num 1 1, .num w v]

/-- R199 item 10: a yes-or-no item. -/
def Fld.yes (b : Bool) : Fld := .num 1 (if b then 1 else 0)

/-- R199 item 5: a port set, P0 first. -/
def Fld.ports (ps : PortSet) : Fld := .num 12 ps.reverse.toNat

/-- R199 item 6. -/
def Fld.filter (x : AuditoriumSet) : Fld := .num 24 x.reverse.toNat

/-- R199 item 8: a text whose length field has `w` bits. -/
def Fld.text (w : Nat) (t : List Byte) : List Fld := .num w t.length :: t.map fun b => .num 8 b.toNat

/-- A key (desk, tag): 5 and 16 bits (R199 item 3). -/
def Fld.key (k : DeskTag) : List Fld := [.num 5 k.desk, .num 16 k.tag]

/-- A run-second count: 32 bits. -/
def Fld.seconds (n : Nat) : Fld := .num 32 n

/-- A lobby minute: 11 bits. -/
def Fld.minute (n : Nat) : Fld := .num 11 n

/-- A show number: 7 bits. -/
def Fld.showNo (n : Nat) : Fld := .num 7 n

/-- A seat count 0–999: 10 bits. -/
def Fld.seats (n : Nat) : Fld := .num 10 n

/-- A show binding (R119): show number, effect code, and the minutes of a DELAY (R199 item 12). -/
def Fld.binding : Option ShowBinding → List Fld
  | none => [.num 1 0]
  | some b => [.num 1 1, Fld.showNo b.showNo, .num 2 b.effect.code] ++
      (match b.effect with | .delay m => [.num 8 m] | .none => [] | .cancel => [])

/-- A reel word's group of 9 bytes (10.2). -/
def Fld.reelWord (w : ReelWord) : List Fld :=
  [.num 16 w.segment, .num 24 w.offset, .num 16 w.count, .num 3 0, Fld.yes w.gate.isSome, Fld.yes w.skip, Fld.yes w.mark,
   Fld.yes w.loop, Fld.yes w.cut, .num 8 (w.gate.getD 0)]

/-- One field appended to the bits so far: their number and their value. -/
def Fld.push (acc : Nat × Nat) : Fld → Nat × Nat
  | .num w v => (acc.1 + w, acc.2 * 2 ^ w + (if v < 2 ^ w then v else Config.oversizeField w v % 2 ^ w))
  | .align => (acc.1 + (8 - acc.1 % 8) % 8, acc.2 * 2 ^ ((8 - acc.1 % 8) % 8))

/-- The leading fields that end within the 512 bits of a payload, appended to the bits so far. -/
def Fld.pushFitting (acc : Nat × Nat) : List Fld → Nat × Nat
  | [] => acc
  | f :: fs => if (Fld.push acc f).1 ≤ 512 then Fld.pushFitting (Fld.push acc f) fs else acc

/-- R199 item 2: fields packed without gaps from bit 0, with zeros behind the last. Where the fields need more than the 512
bits of a payload, those that end within it stand where they would, and the bits behind them are a free value (log 18). -/
def payloadOf (fs : List Fld) : List Byte :=
  let bits := fs.foldl Fld.push (0, 0)
  if bits.1 ≤ 512 then bytesOfNat Config.payloadBytes (bits.2 * 2 ^ (512 - bits.1))
  else
    let fit := Fld.pushFitting (0, 0) fs
    bytesOfNat Config.payloadBytes (fit.2 * 2 ^ (512 - fit.1) + Config.overlongPayload bits.1 bits.2 % 2 ^ (512 - fit.1))

/-- 10.2: the common reply part and the reply's own fields. -/
def Reply.fields (r : Reply) : List Fld :=
  [.num 8 r.code, .num 16 r.tag, .num 8 r.desk, Fld.yes r.unchecked, .num 5 0, .num 2 r.outcome.code, .num 8 r.reason.code,
   Fld.seconds r.placed] ++ r.body

/-- 10.2: the common report part and the report's own fields. -/
def Report.fields (r : Report) : List Fld := [.num 8 r.kind.code, Fld.seconds r.built] ++ r.body

/-- R176, R198: the cell of a queued reply or report. -/
def OutMsg.cell (unit : BitVec 5) : OutMsg → List Byte
  | .reply r => ownCell kindReply unit (payloadOf r.fields)
  | .report r => ownCell kindReport unit (payloadOf r.fields)

/-! ## Panel cells (10.3, R200) -/

/-- Panel cell kind codes (10.3). -/
def PanelCell.kind : PanelCell → Nat
  | .link => 1 | .keepalive => 2 | .strip _ _ _ => 3 | .noticeText _ _ _ => 4 | .noticeClear => 5 | .picture _ => 6
  | .cut => 7 | .dark => 8

/-- Characters with zeros behind them up to `n` bytes. -/
def padText (n : Nat) (t : List Byte) : List Byte := t ++ List.replicate (n - t.length) 0

/-- R200: the payload of a panel cell. -/
def PanelCell.payload : PanelCell → List Byte
  | .link | .keepalive | .noticeClear | .cut | .dark => zeroPayload
  | .picture bytes => bytes
  | .noticeText k priority chars =>
    bytesOfNat 1 k.desk ++ bytesOfNat 2 k.tag ++ bytesOfNat 1 priority ++ bytesOfNat 1 chars.length ++ padText 48 chars
      ++ bytesOfNat 11 0
  | .strip row rows none => bytesOfNat 1 row ++ bytesOfNat 1 rows ++ bytesOfNat 1 0xFF ++ bytesOfNat 61 0
  | .strip row rows (some x) =>
    bytesOfNat 1 row ++ bytesOfNat 1 rows ++ bytesOfNat 1 x.showNo ++ bytesOfNat 1 x.auditorium ++ bytesOfNat 2 x.effStart
      ++ bytesOfNat 1 x.delay ++ bytesOfNat 1 x.phase.code ++ bytesOfNat 1 x.format ++ bytesOfNat 2 x.free
      ++ bytesOfNat 1 x.avail.code ++ bytesOfNat 1 x.title.length ++ padText 40 x.title ++ bytesOfNat 11 0

/-- R200: the 80 bytes of a panel cell of a unit's port. -/
def PanelCell.bytes (unit : BitVec 5) (p : Port) (c : PanelCell) : List Byte :=
  sealCell (bytesOfNat 1 c.kind ++ bytesOfNat 1 unit.toNat ++ bytesOfNat 1 p.val ++ bytesOfNat 9 0
    ++ bytesOfNat 2 (checkWord c.payload).toNat) c.payload

/-- R200: a port builds a cell, with the unit address, its number and both check words, and notes its source (R141). -/
def State.build (s : State) (p : Port) (c : PanelCell) (fromContext : Bool) : Staged :=
  { cell := c.bytes s.fri.address p, fromContext := fromContext }

/-- Whether a staged cell is a LINK cell, by its kind code. -/
def Staged.isLink (c : Staged) : Bool := decide (byteAt c.cell 0 = PanelCell.link.kind)

end Sys2Proof.Machine
end

