-- ==== Sys2Proof/Machine/Claims.lean ====
section
/-! DEFINITION. Report claims (8.7): which claim is first, how a claim becomes a queued report, and making a claim. -/
namespace Sys2Proof.Machine

/-- R178: a waiting claim, by class. -/
inductive Claim where
  | status (port : Port)
  | mark (port : Port)
  | lapse (key : DeskTag)
  | closing (key : DeskTag)
  | freed (segment : Nat)
  | portEvent (port : Port)
  | restored
  | dayRolled
  deriving DecidableEq, Repr

/-! ## Where each class of claim waits -/

/-- R110: the record of a STATUS_PENDING context. -/
def Context.record? : Context → Option StatusRecord
  | .statusPending r => some r
  | .idle => none
  | .running _ => none

/-- The run of an ACTIVE or SUSPENDED context. -/
def Context.run? : Context → Option Run
  | .running r => some r
  | .idle => none
  | .statusPending _ => none

/-- R104: whether a mark claim waits. -/
def Context.marked (c : Context) : Bool :=
  match c.run? with
  | some r => r.mark.isSome
  | none => false

/-- The freed claim a segment record holds (R84). -/
def SegRecord.freed? : SegRecord → Option FreedClaim
  | .freed c => some c
  | .used _ => none

/-- R134: the records whose NOTICE_CLOSED claim waits. -/
def Notice.waits (n : Notice) : Bool := !n.state.isOpen && n.claimed

/-- R193: an owner that has taken a UNIT RESET whose reply is not yet placed keeps its claims back until then. -/
def State.offers (s : State) (o : Owner) (c : Option Claim) : Option Claim := if s.resetTaken o then none else c

/-- R178: the first waiting claim in class order, and within its class. -/
def State.firstClaim (s : State) : Option Claim :=
  s.offers .playoutChannels ((allPorts.find? fun p => (s.ctx p).record?.isSome).map Claim.status)
  <|> s.offers .playoutChannels ((allPorts.find? fun p => (s.ctx p).marked).map Claim.mark)
  <|> s.offers .seatTally ((s.sq.holds.find? fun h => !h.state.isLive).map fun h => Claim.lapse h.key)
  <|> s.offers .noticeQueue ((s.nq.notices.find? Notice.waits).map fun n => Claim.closing n.key)
  <|> s.offers .segmentTable ((s.sg.segs.find? fun e => e.2.freed?.isSome).map fun e => Claim.freed e.1)
  <|> s.offers .panelPorts ((allPorts.find? fun p => !(s.port p).claims.isEmpty).map Claim.portEvent)
  <|> s.offers .feedRing (s.fri.restored.map fun _ => Claim.restored)
  <|> s.offers .timebase (s.tb.dayRolled.map fun _ => Claim.dayRolled)

/-! ## The contents of the reports (R196) -/

/-- R109, in the order of its table. -/
def StatusRecord.fields (r : StatusRecord) : List Fld :=
  [.num 4 r.port.val, .num 5 r.reel, .num 16 r.tag, .num 3 r.reason.code] ++ Fld.opt 5 r.lastWord
    ++ [.num 16 r.residual, .num 16 r.passes] ++ Fld.opt 5 r.failedWord ++ Fld.opt 5 r.lostMark ++ [Fld.seconds r.endTime]

/-- R104: port, reel, tag, word index, passes done, run-second, overrun count. -/
def markFields (p : Port) (r : Run) (m : MarkClaim) : List Fld :=
  [.num 4 p.val, .num 5 r.reel, .num 16 r.tag, .num 5 m.wordIndex, .num 16 m.passes, Fld.seconds m.runSecond, .num 8 m.overrun]

/-- The cause and time of a lapse (R32); none while LIVE. -/
def HoldState.lapseFields : HoldState → List Fld
  | .live => []
  | .lapsed cause time => [.num 2 cause.code, Fld.seconds time]

/-- R45. -/
def lapseReportFields (h : Hold) : List Fld :=
  Fld.key h.key ++ [Fld.showNo h.showNo, .num 5 h.seats] ++ h.state.lapseFields ++ [Fld.seconds h.deadline]

/-- The close time of a CLOSING record. -/
def NoticeState.closeTime : NoticeState → Option Nat
  | .closing t => some t
  | .waiting => none
  | .shown => none

/-- R134. The cause is EXPIRED, code 0. -/
def closingFields (n : Notice) : List Fld :=
  Fld.key n.key ++ [.num 1 0, .num 2 n.priority, .num 1 n.form.code, Fld.ports n.shownOn] ++ Fld.opt 32 n.firstShown
    ++ [Fld.seconds (n.state.closeTime.getD 0)] ++ Fld.binding n.binding

/-- R84. -/
def freedFields (seg : Nat) (c : FreedClaim) : List Fld :=
  [.num 10 seg, .num 4 c.key, .num 18 c.firstPage, .num 15 c.pages, Fld.seconds c.runSecond]

/-- R158, R159: the kind of a port event. -/
def PortEvent.kind : PortEvent → ReportKind
  | .stalled _ _ _ => .portStalled
  | .restored _ _ _ => .portRestored
  | .woken _ _ _ => .panelWoken

/-- R159: the fields of each kind. The state stalled from is HELD or LINKING: 2 bits hold both codes (log 17). -/
def PortEvent.fields : PortEvent → List Fld
  | .stalled cause stalledFrom time => [.num 1 cause.code, .num 2 stalledFrom.code, Fld.seconds time]
  | .restored stallTime restoreTime retries => [Fld.seconds stallTime, Fld.seconds restoreTime, .num 8 retries]
  | .woken key priority time => Fld.key key ++ [.num 2 priority, Fld.seconds time]

/-- R159: port, occurrence count, state and mode as the report is built, and the kind's own fields. -/
def portEventFields (p : Port) (r : PortRec) (c : PortClaim) : List Fld :=
  [.num 4 p.val, .num 8 c.occurrences, .num 3 r.state.code, .num 2 r.settings.mode.code] ++ c.event.fields

/-- R181. -/
def RestoredClaim.fields (c : RestoredClaim) : List Fld :=
  [Fld.seconds c.lossTime, Fld.seconds c.restoreTime, .num 16 c.lost, .num 8 c.occurrences]

/-- R3. -/
def DayRolled.fields (c : DayRolled) : List Fld := [Fld.seconds c.runSecond, .num 8 c.rolls]

/-! ## Giving places -/

/-- R177, R178, R193: a place is free, and the FRI has not taken its part of a UNIT RESET whose reply is not yet placed. -/
def State.placeFree (s : State) : Bool :=
  !s.resetTaken .feedRing && decide (s.fri.queue.length + s.fri.reservations < Config.replyPlaces)

/-- R177: a report joins the back of the queue. -/
def State.queueReport (s : State) (kind : ReportKind) (body : List Fld) : State :=
  { s with fri := { s.fri with queue := s.fri.queue ++ [.report { kind := kind, built := s.now, body := body }] } }

/-- The records of the hold table without the key `k`. -/
def State.dropHold (s : State) (k : DeskTag) : State := { s with sq := { holds := s.sq.holds.filter fun h => h.key ≠ k } }

/-- The records of the notice table without the key `k`. -/
def State.dropNotice (s : State) (k : DeskTag) : State :=
  { s with nq := { s.nq with notices := s.nq.notices.filter fun n => n.key ≠ k } }

/-- R178: the owner builds the report from its record as it stands, the report is queued, and the claim is cleared, with
its record (R45, R134) or its context (R110). A claim that is not there leaves the state unchanged. -/
def State.serve (s : State) : Claim → State
  | .status p =>
    match (s.ctx p).record? with
    | some r => (s.queueReport .reelEnd r.fields).setCtx p .idle
    | none => s
  | .mark p =>
    match (s.ctx p).run? with
    | some r =>
      match r.mark with
      | some m => (s.queueReport .reelMark (markFields p r m)).setCtx p (.running { r with mark := none })
      | none => s
    | none => s
  | .lapse k =>
    match s.sq.holds.find? (fun h => decide (h.key = k) && !h.state.isLive) with
    | some h => (s.queueReport .holdLapsed (lapseReportFields h)).dropHold k
    | none => s
  | .closing k =>
    match s.nq.notices.find? (fun n => decide (n.key = k) && n.waits) with
    | some n => (s.queueReport .noticeClosed (closingFields n)).dropNotice k
    | none => s
  | .freed n =>
    match s.freedAt n with
    | some c => (s.queueReport .segmentFreed (freedFields n c)).emptySeg n
    | none => s
  | .portEvent p =>
    match (s.port p).claims with
    | c :: rest =>
      (s.queueReport c.event.kind (portEventFields p (s.port p) c)).setPort p { s.port p with claims := rest }
    | [] => s
  | .restored =>
    match s.fri.restored with
    | some c =>
      let t := s.queueReport .feedRestored c.fields
      { t with fri := { t.fri with restored := none } }
    | none => s
  | .dayRolled =>
    match s.tb.dayRolled with
    | some c =>
      let t := s.queueReport .dayRolled c.fields
      { t with tb := { t.tb with dayRolled := none } }
    | none => s

/-- R178: free places go to the waiting claims in their order, as long as both last; `n` bounds the places. -/
def State.serveUpTo : Nat → State → State
  | 0, s => s
  | n + 1, s =>
    if s.placeFree then
      match s.firstClaim with
      | some c => State.serveUpTo n (s.serve c)
      | none => s
    else s

/-- R178: every free place is given to a waiting claim. -/
def State.serveWaiting (s : State) : State := s.serveUpTo Config.replyPlaces

/-- R178: a claim that `make` makes is given a place at once while one is free, behind the claims that waited before it
(log 6). -/
def State.withClaim (s : State) (make : State → State) : State := (make s.serveWaiting).serveWaiting

/-- The kind of report a claim gives. -/
def State.claimKind (s : State) : Claim → Option ReportKind
  | .status _ => some .reelEnd
  | .mark _ => some .reelMark
  | .lapse _ => some .holdLapsed
  | .closing _ => some .noticeClosed
  | .freed _ => some .segmentFreed
  | .portEvent p => (s.port p).claims.head?.map fun c => c.event.kind
  | .restored => some .feedRestored
  | .dayRolled => some .dayRolled

/-- R178: the first waiting claim, when it is of the kind `k`, is given a free place. -/
def State.reportStep (k : ReportKind) (s : State) : State :=
  if s.placeFree then
    match s.firstClaim with
    | some c => if s.claimKind c = some k then s.serve c else s
    | none => s
  else s

end Sys2Proof.Machine
end

