-- ==== Sys2Proof/Machine/Boards.lean ====
section
/-! DEFINITION. The Board Composer (chapter 3): which shows stand on a board, recomputation, show changes, and strips. -/
namespace Sys2Proof.Machine

/-! ## Row lists (R51, R52) -/

/-- R51, last test: the window sets only a latest start. -/
def Board.inWindow (b : Board) (x : Show) : Bool :=
  match b.windowMinute with
  | none => true
  | some m => decide (b.window = 0) || decide (x.effStart ≤ m + b.window)

/-- R51: whether a show qualifies for a board. -/
def Board.qualifies (b : Board) (x : Show) : Bool :=
  x.listed && b.filter.getLsbD (x.auditorium - 1) && (decide (x.phase ≠ .cancelled) || b.cancelledShown) && b.inWindow x

/-- R52: effective start, then auditorium, then show number. -/
def boardBefore (a b : Nat × Show) : Bool :=
  if a.2.effStart ≠ b.2.effStart then decide (a.2.effStart < b.2.effStart)
  else if a.2.auditorium ≠ b.2.auditorium then decide (a.2.auditorium < b.2.auditorium)
  else decide (a.1 < b.1)

/-- Insert a show into a list kept in the order of R52. -/
def boardInsert (e : Nat × Show) : List (Nat × Show) → List (Nat × Show)
  | [] => [e]
  | f :: rest => if boardBefore e f then e :: f :: rest else f :: boardInsert e rest

/-- The qualifying shows of a board, in the order of R52. -/
def Board.qualifying (b : Board) (shows : Tbl Show) : List (Nat × Show) :=
  (shows.filter fun e => b.qualifies e.2).foldr boardInsert []

/-- R52: the row list a board has by the shows as they stand. -/
def Board.rowsFor (b : Board) (shows : Tbl Show) : List (Option Nat) :=
  let q := b.qualifying shows
  (List.range b.rows).map fun i => q[i]?.map Prod.fst

/-- R54: the rows whose entry differs between two row lists. -/
def changedRows (rows : Nat) (old new : List (Option Nat)) : List Nat :=
  (List.range rows).filter fun i => (old[i]?.getD none) ≠ (new[i]?.getD none)

/-- R54: recompute a board, marking the rows whose entry changed. -/
def Board.recompute (shows : Tbl Show) (b : Board) : Board :=
  let new := b.rowsFor shows
  { b with rowList := new, pendingRows := (changedRows b.rows b.rowList new).foldl RowSet.mark b.pendingRows }

/-- R55, second step: mark the row of the new row list that holds the show. -/
def Board.markShow (n : Nat) (b : Board) : Board :=
  { b with pendingRows :=
      ((List.range b.rows).filter fun i => b.rowList[i]? = some (some n)).foldl RowSet.mark b.pendingRows }

/-- R55: the Board Composer takes a show change, in the step of the record's change. -/
def State.showChange (n : Nat) (s : State) : State :=
  { s with bc := { boards := s.bc.boards.map fun b => (b.recompute s.st.shows).markShow n } }

/-- Show changes for several shows, in the order of the list (log 13). -/
def State.showChanges (ns : List Nat) (s : State) : State := ns.foldl (fun t n => t.showChange n) s

/-- R53: the Board Composer takes a minute event. -/
def State.boardMinute (m : Nat) (s : State) : State :=
  { s with bc := { boards := s.bc.boards.map fun b => ({ b with windowMinute := some m } : Board).recompute s.st.shows } }

/-- R63: all four settings replaced, the row list computed anew, every row pending. -/
def Board.set (shows : Tbl Show) (rows : Nat) (filter : AuditoriumSet) (window : Nat) (cancelledShown : Bool) (b : Board) :
    Board :=
  let c := { b with rows := rows, filter := filter, window := window, cancelledShown := cancelledShown }
  { c with rowList := c.rowsFor shows, pendingRows := RowSet.allRows rows }

/-- R65: the qualifying count. -/
def State.qualifyingCount (s : State) (p : Port) : Nat := ((s.board p).qualifying s.st.shows).length

/-- How many rows of a row list hold a show (R62). -/
def filledRows (l : List (Option Nat)) : Nat := (l.filter Option.isSome).length

/-! ## Strips (R58, R59, R60) -/

/-- R58: the lowest pending row. -/
def Board.pendingRow (b : Board) : Option Nat := RowSet.lowest b.pendingRows b.rows

/-- R59: what a strip carries of a show. -/
def State.stripShow (s : State) (n : Nat) (x : Show) : StripShow :=
  { showNo := n, auditorium := x.auditorium, title := (s.titleAt x.title).getD [], effStart := x.effStart, delay := x.delay,
    phase := x.phase, format := x.format, free := x.free, avail := x.avail }

/-- R59, R60: the strip cell of row `i`; a row without a show, or whose slot has been emptied, is blank. -/
def State.stripCell (s : State) (p : Port) (i : Nat) : PanelCell :=
  .strip i (s.board p).rows <|
    match ((s.board p).rowList[i]?).getD none with
    | some n => (s.showAt n).map (s.stripShow n)
    | none => none

/-- R58: the row leaves the pending set. -/
def State.clearRow (s : State) (p : Port) (i : Nat) : State :=
  s.setBoard p { s.board p with pendingRows := RowSet.unmark (s.board p).pendingRows i }

end Sys2Proof.Machine
end

