-- ==== Sys2Proof/Machine/Tally.lean ====
section
/-! DEFINITION. The Seat Tally's passes (2.4): lapses, end notices, the counts of a show, the tally part; and the Show
Table's evaluation (R12 to R18). -/
namespace Sys2Proof.Machine

/-! ## Counts (R27, R29) -/

/-- R29: what a board prints of the tally: free and availability. -/
def Show.printed (x : Show) : Nat × Avail := (x.free, x.avail)

/-- R29: at the end of an operation on show `n`, availability is computed again and, when free or availability differ from
those of the record `before` the operation, one show change is sent. -/
def State.settleTally (n : Nat) (before : Option Show) (s : State) : State :=
  match s.showAt n with
  | none => s
  | some y =>
    let t := s.setShow n y.retally
    if before.map Show.printed = some y.retally.printed then t else t.showChange n

/-- An operation of the Seat Tally on the counts of show `n` with R29 behind it. -/
def State.moveTally (n : Nat) (f : Show → Show) (s : State) : State :=
  match s.showAt n with
  | none => s
  | some x => (s.setShow n (f x)).settleTally n (some x)

/-! ## Lapses (R42, R43) -/

/-- The hold of a key, LIVE or LAPSED. -/
def State.holdAt (s : State) (k : DeskTag) : Option Hold := s.sq.holds.find? fun h => h.key = k

/-- Held falls by `seats` in show `n`. -/
def State.lowerHeld (n seats : Nat) (s : State) : State :=
  match s.showAt n with
  | some x => s.setShow n { x with held := x.held - seats }
  | none => s

/-- R42, R43: the record of key `k` becomes LAPSED. -/
def State.markLapsed (k : DeskTag) (cause : LapseCause) (time : Nat) (s : State) : State :=
  { s with sq := { holds := s.sq.holds.map fun h => if h.key = k then { h with state := .lapsed cause time } else h } }

/-- R42, R43: one LIVE record lapses: held falls by its seats; the LAPSED record is its own claim, which waits (R45). -/
def State.lapseHold (cause : LapseCause) (time : Nat) (h : Hold) (s : State) : State :=
  (s.markLapsed h.key cause time).lowerHeld h.showNo h.seats

/-- Lapse the holds of the list, front first. -/
def State.lapseHolds (cause : LapseCause) (time : Nat) (hs : List Hold) (s : State) : State :=
  hs.foldl (fun t h => t.lapseHold cause time h) s

/-- The LIVE holds of show `n`, front first. -/
def State.liveHolds (s : State) (n : Nat) : List Hold := s.sq.holds.filter fun h => h.state.isLive && decide (h.showNo = n)

/-- R43: the pass of an end notice, its claims waiting. -/
def State.endPass (n : Nat) (cause : LapseCause) (s : State) : State :=
  if (s.liveHolds n).isEmpty then s
  else (s.lapseHolds cause s.now (s.liveHolds n)).settleTally n (s.showAt n)

/-- R43, R178: the pass of an end notice, its claims given the places that are free. -/
def State.endPassPlaced (n : Nat) (cause : LapseCause) (s : State) : State :=
  if (s.liveHolds n).isEmpty then s else s.withClaim (State.endPass n cause)

/-- The cause of the first end notice of show `n` that the Seat Tally has not taken. -/
def State.endCause (s : State) (n : Nat) : Option LapseCause := (s.paths.endNotices.find? fun e => e.1 = n).map Prod.snd

/-- The end notices of show `n` leave their path (log 11). -/
def State.dropEndNotices (n : Nat) (s : State) : State :=
  { s with paths := { s.paths with endNotices := s.paths.endNotices.filter fun e => e.1 ≠ n } }

/-- R44: `act` is taken behind the pass of an untaken end notice of show `n`, against the tables as that pass leaves them: the
LAPSED records of the pass stand while `act` is taken, and only then are their claims given the places that are free
(log 30). -/
def State.afterNotice {α : Type} (n : Nat) (act : State → State × α) (s : State) : State × α :=
  match s.endCause n with
  | none => act s
  | some cause =>
    if (s.liveHolds n).isEmpty then act (s.dropEndNotices n)
    else
      let r := act (((s.dropEndNotices n).serveWaiting).endPass n cause)
      (r.1.serveWaiting, r.2)

/-- The LIVE holds whose deadline is at or below a count, front first (R42). -/
def State.dueHolds (s : State) (count : Nat) : List Hold :=
  s.sq.holds.filter fun h => h.state.isLive && decide (h.deadline ≤ count)

/-- Show numbers 0 to 95. -/
def allShowNos : List Nat := List.range Config.showSlots

/-- The shows the holds of a list name, lowest first. -/
def holdShows (hs : List Hold) : List Nat := allShowNos.filter fun n => hs.any fun h => h.showNo = n

/-- R44, last case: the end notices of the shows whose holds an event would lapse are taken before it, the lowest show number
first (log 30). -/
def State.endNoticesDue (count : Nat) (s : State) : State :=
  (holdShows (s.dueHolds count)).foldl (fun t n => (t.afterNotice n fun u => (u, ())).1) s

/-- R42: the pass of a run-second event over the holds `due`, with R29 once for each show, its claims waiting. -/
def State.lapseDue (count : Nat) (due : List Hold) (s : State) : State :=
  (holdShows due).foldl (fun t n => t.settleTally n (s.showAt n)) (s.lapseHolds .expired count due)

/-- R42, R178: the pass of a run-second event, its claims given the places that are free. -/
def State.expiryPass (count : Nat) (s : State) : State :=
  if (s.dueHolds count).isEmpty then s else s.withClaim (State.lapseDue count (s.dueHolds count))

/-! ## The tally part (R41) -/

/-- Free, sold, held and availability. -/
def Show.tallyFields (x : Show) : List Fld := [Fld.seats x.free, Fld.seats x.sold, Fld.seats x.held, .num 2 x.avail.code]

/-- R41: the tally part for a named show number, or for none. -/
def State.tallyPart (s : State) (n : Option Nat) : List Fld :=
  match n.bind fun k => (s.showAt k).map fun x => (k, x) with
  | some (k, x) => [.num 1 1, Fld.showNo k] ++ x.tallyFields
  | none => [.num 1 0, Fld.seats 0, Fld.seats 0, Fld.seats 0, .num 2 Avail.opn.code]

/-! ## Evaluation (R12, R13, R14, R17, R18) -/

/-- R17: the displayed fields of the Show Table's record (the title's text apart). -/
def Show.displayed (x : Show) : Nat × Nat × Nat × Nat × Phase × Nat × Bool :=
  (x.auditorium, x.title, x.delay, x.effStart, x.phase, x.format, x.listed)

/-- R17: one show change after an operation's whole effect, when a displayed field of show `n` differs from `before`. -/
def State.announce (n : Nat) (before : Show) (s : State) : State :=
  match s.showAt n with
  | some x => if x.displayed = before.displayed then s else s.showChange n
  | none => s

/-- R14: whether a change of phase is an entry to ENDED. -/
def endsAt (before after : Show) : Bool := decide (before.phase ≠ .ended) && decide (after.phase = .ended)

/-- R14: the Show Table tells the Seat Tally that show `n` has ended. -/
def State.tellEnded (n : Nat) (s : State) : State :=
  { s with paths := { s.paths with endNotices := s.paths.endNotices ++ [(n, .showEnded)] } }

/-- R12: the show's own evaluation, made only while the clock is RUNNING. -/
def State.evaluate (n : Nat) (s : State) : State :=
  match s.tb.clock, s.showAt n with
  | .running m _, some x =>
    let t := s.setShow n (x.evaluate m)
    if endsAt x (x.evaluate m) then t.tellEnded n else t
  | .running _ _, none => s
  | .unset, _ => s

/-- R18: what a minute makes of one record: evaluation, and the listing of a CANCELLED show tested again. -/
def Show.minute (m : Nat) (x : Show) : Show := (x.evaluate m).retest m

/-- R18, R5: every occupied show is taken at a minute; show changes follow, lowest show first (log 13). The end notices of the
shows it ends go on the path to the Seat Tally behind those still untaken, lowest show number first; the spec gives several end
notices of one minute event no order, and this one is the model's choice (log 37). -/
def State.minutePass (m : Nat) (s : State) : State :=
  let ended := (s.st.shows.filter fun e => endsAt e.2 (e.2.minute m)).map fun e => (e.1, LapseCause.showEnded)
  let changed := (s.st.shows.filter fun e => e.2.displayed ≠ (e.2.minute m).displayed).map Prod.fst
  ({ s with
      st := { s.st with shows := s.st.shows.map fun e => (e.1, e.2.minute m) }
      paths := { s.paths with endNotices := s.paths.endNotices ++ ended } } : State).showChanges changed

/-- R5: the number of shows whose phase a minute changes. -/
def State.phaseChanges (m : Nat) (s : State) : Nat := (s.st.shows.filter fun e => e.2.phase ≠ (e.2.minute m).phase).length

/-! ## Delay and cancel (R23, R24), shared by the show orders and the notice effects (R124) -/

/-- R23: the own conditions of SHOW DELAY, in order. -/
def State.delayRefusal (s : State) (n minutes : Nat) : Option Reason :=
  match s.showAt n with
  | none => some .noSuchShow
  | some x =>
    if x.phase ≠ .selling ∧ x.phase ≠ .seating then some .wrongPhase
    else if x.start + minutes + x.window > Config.lastMinute then some .badField
    else none

/-- R23: the whole delay of show `n` is set; a delay equal to the present one changes nothing. -/
def State.delayShow (n minutes : Nat) (s : State) : State :=
  match s.showAt n with
  | none => s
  | some x => if x.delay = minutes then s else ((s.setShow n { x with delay := minutes }).evaluate n).announce n x

/-- R24: the own conditions of SHOW CANCEL, in order. -/
def State.cancelRefusal (s : State) (n : Nat) : Option Reason :=
  match s.showAt n with
  | none => some .noSuchShow
  | some x => if x.phase.isOpen then none else some .wrongPhase

/-- R24: the show becomes CANCELLED and its LIVE holds lapse, before the reply. -/
def State.cancelShow (n : Nat) (s : State) : State :=
  match s.showAt n with
  | none => s
  | some x =>
    let y := { x with phase := .cancelled, cancelledListed := x.listedCancelled s.tb.clock.minute }
    ((s.setShow n y).endPassPlaced n .showCancelled).announce n x

end Sys2Proof.Machine
end

