-- ==== Sys2Proof/Machine/Pins.lean ====
section
/-! DEFINITION. Pins and cells of segments (R68, R80 to R83), and the load check (R76). -/
namespace Sys2Proof.Machine

/-- R80: the answers to a pin request. -/
inductive PinAnswer where
  | granted | notReady | keyMismatch
  deriving DecidableEq, Repr

/-- R80: the answer to a pin request for the stretch of `count` cells from `offset`; R85: NOT_READY while the Segment Table
has taken a UNIT RESET whose reply is not yet placed. -/
def State.pinAnswer (s : State) (seg key offset count : Nat) : PinAnswer :=
  if s.resetTaken .segmentTable then .notReady
  else match s.segAt seg with
    | none => .notReady
    | some g =>
      if g.state ≠ .ready ∨ offset + count > g.length then .notReady
      else if keyPasses key g.key then .granted
      else .keyMismatch

/-- R80: a GRANTED answer counts one pin. -/
def State.addPin (seg : Nat) (s : State) : State :=
  match s.segAt seg with
  | some g => s.setSeg seg (.used { g with pins := g.pins + 1 })
  | none => s

/-- R82: a release lowers the count; a RETIRING segment at count 0 becomes EMPTY with a SEGMENT_FREED claim. R85: ignored
while the Segment Table has taken a UNIT RESET whose reply is not yet placed. -/
def State.releasePin (seg : Nat) (s : State) : State :=
  if s.resetTaken .segmentTable then s
  else match s.segAt seg with
    | none => s
    | some g =>
      if g.state = .retiring ∧ g.pins ≤ 1 then
        s.withClaim fun t =>
          t.setSeg seg (.freed { runSecond := t.now, firstPage := g.firstPage, pages := g.pages, key := g.key })
      else s.setSeg seg (.used { g with pins := g.pins - 1 })

/-- R68: the byte address of byte 0 of the cell of index `i` of a segment that begins at page `p`. -/
def cellAddress (p i : Nat) : Nat := (p * Config.placesPerPage + i) * Config.payloadBytes

/-- One byte of the content memory; a byte nothing has written is undefined, a free value (R68, log 5). -/
def State.contentByte (s : State) (a : Nat) : Byte := (Memory.read s.sg.content a).getD (Config.undefinedByte s.epoch a)

/-- R83: the 64 bytes of the cell of index `i`. A record that reserves no pages is read by a context or TAKEOVER that has not
yet taken a UNIT RESET the Segment Table has taken; its bytes are free values, at addresses of their own beyond the memory
(log 29). -/
def State.readCell (s : State) (seg i : Nat) : List Byte :=
  match s.segAt seg with
  | some g => (List.range Config.payloadBytes).map fun k => s.contentByte (cellAddress g.firstPage i + k)
  | none =>
    (List.range Config.payloadBytes).map fun k =>
      Config.undefinedByte s.epoch (((seg + 16) * 1048576 + i) * Config.payloadBytes + k)

/-- R76: the sum of a payload's 16 numbers of 4 bytes, most significant byte first. -/
def payloadSum (bytes : List Byte) : BitVec 32 :=
  (List.range 16).foldl (fun acc k => acc + BitVec.ofNat 32 (natOfBytes ((bytes.drop (4 * k)).take 4))) 0

/-- R72: whether pages `p` to `p + n - 1` meet the pages of a record. -/
def Segment.meets (g : Segment) (p n : Nat) : Bool := decide (p < g.firstPage + g.pages) && decide (g.firstPage < p + n)

/-- R73, condition 4: the lowest segment whose reserved pages meet pages `p` to `p + n - 1`. -/
def State.overlap (s : State) (p n : Nat) : Option Nat :=
  (s.sg.segs.find? fun e => match e.2 with | .used g => g.meets p n | .freed _ => false).map Prod.fst

end Sys2Proof.Machine
end

