-- ==== Sys2Proof/Machine/Playout.lean ====
section
/-! DEFINITION. The Playout Channels' own actions (5.3 to 5.5): search, prefetch, word end, run end, suspension,
resumption and restart. -/
namespace Sys2Proof.Machine

/-! ## Searches (R96, R99, R100) -/

/-- R100. -/
def State.eligible (s : State) (w : ReelWord) : Bool :=
  !w.skip && (match w.gate with | none => true | some n => s.gateOpen n)

/-- What a search finds. -/
inductive Found where
  | word (index : Nat) (w : ReelWord) (crossed : Bool)
  | marker (reason : MarkerReason)
  deriving DecidableEq, Repr

/-- R99: `n` candidates may still be examined, the next one at index `i` (an index at the reel's length is a pass boundary).
The candidates run out before a boundary is looked at (step 5). The count alone ends the search: behind a current word that has
LOOP and is not the last, a search that has crossed examines the current word, passes it over where it is not eligible and goes on
to the words behind it, as steps 4 and 5 say; that R99's "the current word is itself the last candidate" does not stop it there is
the model's choice (log 38). -/
def State.searchWord (s : State) (words : List ReelWord) (repeatLeft : Nat) : Nat → Nat → Bool → Found
  | 0, _, _ => .marker .allPassed
  | n + 1, i, crossed =>
    match words[i]? with
    | some w => if s.eligible w then .word i w crossed else s.searchWord words repeatLeft n (i + 1) crossed
    | none =>
      if repeatLeft = 1 then .marker .ended
      else match words[0]? with
        | some w => if s.eligible w then .word 0 w true else s.searchWord words repeatLeft n 1 true
        | none => .marker .allPassed

/-- R99, step 1: the index the search starts from; after LOOP or the last word it is the pass boundary. -/
def searchStart (words : List ReelWord) (r : Run) : Nat :=
  if r.cur.loop then words.length else r.curIndex + 1

/-- R99: the search for the word after the current one. -/
def State.searchNext (s : State) (r : Run) : Found :=
  let words := (s.reelAt r.reel).words
  s.searchWord words r.repeatLeft words.length (searchStart words r) false

/-- R96: the first eligible word of a list, with its index. -/
def State.firstEligible (s : State) : Nat → List ReelWord → Option (Nat × ReelWord)
  | _, [] => none
  | i, w :: ws => if s.eligible w then some (i, w) else s.firstEligible (i + 1) ws

/-! ## Prefetch (R98, R101) -/

/-- R98: residual 8 or fewer, and an empty slot. -/
def Run.prefetchDue (r : Run) : Bool := decide (r.residual ≤ Config.prefetchResidual) && decide (r.slot = .empty)

/-- R101: the word's pin is asked for; the answer sets the slot. -/
def State.fillPrefetch (p : Port) (r : Run) (i : Nat) (w : ReelWord) (crossed : Bool) (s : State) : State :=
  match s.pinAnswer w.segment r.key w.offset w.count with
  | .granted => (s.addPin w.segment).setCtx p (.running { r with slot := .good i w crossed })
  | .notReady => s.setCtx p (.running { r with slot := .deferred i .segmentNotReady })
  | .keyMismatch => s.setCtx p (.running { r with slot := .deferred i .keyMismatch })

/-- R98, R99: the prefetch, when its condition holds. -/
def State.prefetch (p : Port) (s : State) : State :=
  match (s.ctx p).run? with
  | none => s
  | some r =>
    if r.prefetchDue then
      match s.searchNext r with
      | .word i w crossed => s.fillPrefetch p r i w crossed
      | .marker reason => s.setCtx p (.running { r with slot := .marker reason })
    else s

/-! ## Marks (R104) -/

/-- R104: the REEL_MARK claim of the word that has become current, if it has MARK. A waiting claim is replaced. -/
def State.markWord (p : Port) (s : State) : State :=
  match (s.ctx p).run? with
  | none => s
  | some r =>
    if r.cur.mark then
      s.withClaim fun t =>
        match (t.ctx p).run? with
        | none => t
        | some r =>
          let overrun := match r.mark with | none => 0 | some m => min 255 (m.overrun + 1)
          let claim : MarkClaim :=
            { wordIndex := r.curIndex, passes := r.passes, runSecond := t.now, overrun := overrun }
          t.setCtx p (.running { r with mark := some claim })
    else s

/-! ## The end of a run (R108) -/

/-- R89, R87: a run's end lowers its reel's binding count, unless the Reel Table has taken a UNIT RESET whose reply is not
yet placed. -/
def State.lowerBinding (n : Nat) (s : State) : State :=
  if s.resetTaken .reelTable then s
  else s.setReel n { s.reelAt n with binding := (s.reelAt n).binding - 1 }

/-- The segment of a good word in a slot. -/
def Prefetch.pinned : Prefetch → Option Nat
  | .good _ w _ => some w.segment
  | .empty => none
  | .deferred _ _ => none
  | .marker _ => none

/-- Release the pin of a segment, if one is named. -/
def State.releaseSome (seg : Option Nat) (s : State) : State :=
  match seg with
  | some n => s.releasePin n
  | none => s

/-- R109. -/
def Run.record (r : Run) (p : Port) (reason : EndReason) (failed : Option Nat) (time : Nat) : StatusRecord :=
  { port := p, reel := r.reel, tag := r.tag, reason := reason, lastWord := some r.curIndex, residual := r.residual,
    passes := r.passes, failedWord := failed, lostMark := r.mark.map MarkClaim.wordIndex, endTime := time }

/-- R108: the run ends. `curPin` is the segment of the current word's pin, if the context still holds it. The discarded mark
claim is taken from the context first, so that no place can go to it. -/
def State.endRun (p : Port) (reason : EndReason) (failed curPin : Option Nat) (s : State) : State :=
  match (s.ctx p).run? with
  | none => s
  | some r =>
    let t := ((s.setCtx p (.running { r with mark := none })).releaseSome curPin).releaseSome r.slot.pinned
    (t.lowerBinding r.reel).withClaim fun u => u.setCtx p (.statusPending (r.record p reason failed s.now))

/-- The run ends while its current word's pin is still held (HALTED, PORT_STALLED, PORT_RESET). -/
def State.breakRun (p : Port) (reason : EndReason) (s : State) : State :=
  match (s.ctx p).run? with
  | none => s
  | some r => s.endRun p reason none (some r.cur.segment)

/-- R107, R112: a port event ends the run with its reason, or HALTED when the context is halting. -/
def State.portEndsRun (p : Port) (reason : EndReason) (s : State) : State :=
  match (s.ctx p).run? with
  | none => s
  | some r => s.breakRun p (if r.halting then .halted else reason)

/-- R112: a halting context ends HALTED once no place of the staging holds a cell of it. -/
def State.haltCheck (p : Port) (s : State) : State :=
  match (s.ctx p).run? with
  | none => s
  | some r => if r.halting && !(s.port p).contextStaged then s.breakRun p .halted else s

/-! ## Word ends (R102, R103) -/

/-- R103: passes done, which stays at 65,535. -/
def addPass (n : Nat) : Nat := min 65535 (n + 1)

/-- R102, good word: the run with the slot's word as its current word. -/
def Run.takeUp (r : Run) (i : Nat) (w : ReelWord) (crossed : Bool) : Run :=
  { r with curIndex := i, cur := w, residual := w.count, slot := .empty, cutDue := r.cutDue || w.cut,
           passes := if crossed then addPass r.passes else r.passes,
           repeatLeft := if crossed then r.repeatLeft - 1 else r.repeatLeft }

/-- R102: the current word ends. An empty slot is met in no run (R98 has filled it); the run then ends as it would with
nothing found (log 26). -/
def State.wordEnd (p : Port) (s : State) : State :=
  match (s.ctx p).run? with
  | none => s
  | some r =>
    let t := s.releasePin r.cur.segment
    match r.slot with
    | .good i w crossed =>
      match (t.ctx p).run? with
      | none => t
      | some r' => ((t.setCtx p (.running (r'.takeUp i w crossed))).markWord p).prefetch p
    | .deferred i .segmentNotReady => t.endRun p .segmentNotReady (some i) none
    | .deferred i .keyMismatch => t.endRun p .keyMismatch (some i) none
    | .marker .ended =>
      match (t.ctx p).run? with
      | none => t
      | some r' => (t.setCtx p (.running { r' with passes := addPass r'.passes })).endRun p .ended none none
    | .marker .allPassed => t.endRun p .allPassed none none
    | .empty => t.endRun p .allPassed none none

/-! ## Suspension, resumption, restart (R105, R106, R107) -/

/-- R106, R107: the current word from its first cell, with CUT due. -/
def Run.restarted (r : Run) : Run := { r with residual := r.cur.count, cutDue := true }

/-- R105, R112: a suspension cause arises. -/
def State.suspend (p : Port) (s : State) : State :=
  match (s.ctx p).run? with
  | none => s
  | some r => if r.halting then s.breakRun p .halted else s.setCtx p (.running { r with suspended := true })

/-- R106: whether both suspension causes are gone on an available port. -/
def State.mayRun (s : State) (p : Port) : Bool :=
  (s.port p).state.available && decide ((s.port p).settings.mode = .live) && !(s.slot p).takeover

/-- R106: a SUSPENDED context resumes once no cause is left. A halting context stays as it is until it ends (log 20). -/
def State.resume (p : Port) (s : State) : State :=
  match (s.ctx p).run? with
  | none => s
  | some r =>
    if r.suspended && !r.halting && s.mayRun p then s.setCtx p (.running { r.restarted with suspended := false }) else s

/-- R107, slip: the current word restarts; a halting context ends HALTED. -/
def State.restartWord (p : Port) (s : State) : State :=
  match (s.ctx p).run? with
  | none => s
  | some r => if r.halting then s.breakRun p .halted else s.setCtx p (.running r.restarted)

/-! ## Progress (R113) -/

/-- R113: the prefetch slot as a choice of four. A deferred slot's reason is code 3 or 4, in 3 bits, and an end marker's 0 or 2,
in 2 (R199 item 3, log 17). -/
def Prefetch.fields : Prefetch → List Fld
  | .empty => [.num 2 0]
  | .good i _ _ => [.num 2 1, .num 5 i]
  | .deferred i .segmentNotReady => [.num 2 2, .num 5 i, .num 3 EndReason.segmentNotReady.code]
  | .deferred i .keyMismatch => [.num 2 2, .num 5 i, .num 3 EndReason.keyMismatch.code]
  | .marker .ended => [.num 2 3, .num 2 EndReason.ended.code]
  | .marker .allPassed => [.num 2 3, .num 2 EndReason.allPassed.code]

/-- R113: the progress of a running reel; the halting flag is 1 for "on", the model's choice (log 17). -/
def Run.progress (r : Run) : List Fld :=
  [.num 2 (Context.running r).code, Fld.yes r.halting, .num 5 r.reel, .num 16 r.tag, .num 4 r.key, .num 5 r.curIndex,
   .num 16 r.residual, .num 16 r.passes, .num 8 r.repeatLeft] ++ r.slot.fields ++ [Fld.yes r.mark.isSome]

end Sys2Proof.Machine
end

