-- ==== Sys2Proof/Machine/Slots.lean ====
section
/-! DEFINITION. Notice slots (6.3): selection, what a slot change owes, and what it tells the other owners; with the two
flushes of a port (R141, R153). -/
namespace Sys2Proof.Machine

/-! ## Flushes -/

/-- R143, R153: the live buffer is flushed and the live gap turned on. -/
def State.flushLive (p : Port) (s : State) : State := s.setPort p { s.port p with live := [], liveGap := true }

/-- R141: a flush empties both places; the Playout Channel is told of a CONTEXT cell among them (R112). -/
def State.flushStaging (p : Port) (s : State) : State :=
  let t := s.setPort p { s.port p with nextPlace := none, sendingPlace := none }
  if (s.port p).contextStaged then t.haltCheck p else t

/-! ## Selection (R125) -/

/-- The record of a key. -/
def State.noticeAt (s : State) (k : DeskTag) : Option Notice := s.nq.notices.find? fun n => n.key = k

/-- R125: the notice a port should show. -/
def State.selected (s : State) (p : Port) : Option Notice :=
  if (s.port p).eligible then s.nq.notices.find? fun n => n.state.isOpen && PortSet.has n.targets p else none

/-- Change the record of a key. -/
def State.mapNotice (k : DeskTag) (f : Notice → Notice) (s : State) : State :=
  { s with nq := { s.nq with notices := s.nq.notices.map fun n => if n.key = k then f n else n } }

/-- Whether the notice of a key stands in the slot of a port. -/
def State.showsKey (s : State) (k : DeskTag) (p : Port) : Bool :=
  match (s.slot p).shown with
  | some x => decide (x.key = k)
  | none => false

/-- The ports whose slots hold the notice of a key. -/
def State.showingPorts (s : State) (k : DeskTag) : PortSet := PortSet.ofPred (s.showsKey k)

/-- R120, R126: the record enters the slot of a port. -/
def Notice.enter (p : Port) (time : Nat) (n : Notice) : Notice :=
  { n with state := .shown, shownOn := PortSet.add n.shownOn p, firstShown := some (n.firstShown.getD time) }

/-- R126: a leaving record that stands in no slot becomes WAITING, unless it is CLOSING. -/
def Notice.leave (n : Notice) : Notice := if n.state.isOpen then { n with state := .waiting } else n

/-- The form of what a slot shows. -/
def Slot.form (x : Slot) : Option Form := x.shown.map Shown.form

/-- R126: the slot with `n` in it, owing what the leaving and the entering notice owe. -/
def Slot.change (x : Slot) (n : Option Shown) : Slot :=
  { shown := n
    clearOwed := x.clearOwed || decide (x.form = some .text)
    textOwed := decide (n.map Shown.form = some .text)
    cutOwed := decide (n.map Shown.form = some .takeover)
    position := 0
    repeatCut := false }

/-- R126: the records of the notice that left and the notice that entered the slot of a port. -/
def State.moveRecords (p : Port) (left : Option Shown) (entered : Option Notice) (s : State) : State :=
  let t := match entered with
    | some n => s.mapNotice n.key (Notice.enter p s.now)
    | none => s
  match left with
  | some x => if allPorts.any (t.showsKey x.key) then t else t.mapNotice x.key Notice.leave
  | none => t

/-- R130: what a slot change tells the context and the live buffer of the port. -/
def State.tellTakeover (p : Port) (before after : Bool) (s : State) : State :=
  if after then
    if before then s.flushLive p else (s.flushLive p).suspend p
  else if before then s.resume p
  else s

/-- R125, R126, R130: the port's notice is selected again. -/
def State.selectPort (p : Port) (s : State) : State :=
  let chosen := s.selected p
  if chosen.map Notice.key = (s.slot p).shown.map Shown.key then s
  else
    let slot := (s.slot p).change (chosen.map fun n => { key := n.key, form := n.form })
    ((s.setSlot p slot).moveRecords p (s.slot p).shown chosen).tellTakeover p (s.slot p).takeover slot.takeover

/-- Several ports are selected again, lowest first: R123, R133 and R135 give no order, and this one is the model's choice (log 40). -/
def State.selectPorts (ps : PortSet) (s : State) : State := s.forPorts (PortSet.members ps) State.selectPort

/-- R129: at LINKING to READY the notice is sent again from its beginning. -/
def Slot.resend (x : Slot) : Slot :=
  match x.form with
  | some .text => { x with textOwed := true }
  | some .takeover => { x with cutOwed := true, position := 0, repeatCut := false }
  | none => x

/-! ## Notice cells (R127) -/

/-- R127: whether a notice cell is owed. -/
def Slot.owes (x : Slot) : Bool := x.clearOwed || x.textOwed || x.cutOwed

/-- R127: the NOTICE_TEXT of a record. -/
def Notice.textCell (n : Notice) : PanelCell :=
  .noticeText n.key n.priority (match n.body with | .text cs => cs | .takeover _ _ => [])

/-- R127: the first owed cell, and the slot without it. The text is built from the record at the take. -/
def State.noticeCell (s : State) (p : Port) : Option (PanelCell × Slot) :=
  let x := s.slot p
  if x.clearOwed then some (.noticeClear, { x with clearOwed := false })
  else if x.textOwed then
    ((x.shown.bind fun k => s.noticeAt k.key).map fun n => (n.textCell, { x with textOwed := false }))
  else if x.cutOwed then some (.cut, { x with cutOwed := false })
  else none

/-! ## The takeover's stream (R128) -/

/-- The segment of the TAKEOVER that stands in a port's slot. -/
def State.takeoverSegment (s : State) (p : Port) : Option Nat :=
  match ((s.slot p).shown.bind fun k => s.noticeAt k.key).map Notice.body with
  | some (.takeover seg _) => some seg
  | some (.text _) => none
  | none => none

/-- The length of a segment. A record that reserves no pages has none; a TAKEOVER whose segment a UNIT RESET has made EMPTY
before the Notice Queue takes the reset is given length 0: the model's choice (log 29). -/
def State.segLength (s : State) (seg : Nat) : Nat :=
  match s.segAt seg with
  | some g => g.length
  | none => 0

/-- R128: one cell of the takeover, and the slot behind it. By the length 0 of a segment that a UNIT RESET has made EMPTY
(log 29) each picture is the last of its pass: the position returns to 0 and the repeat CUT is due. -/
def State.takeoverCell (s : State) (p : Port) (seg : Nat) : PanelCell × Slot :=
  let x := s.slot p
  if x.repeatCut then (.cut, { x with repeatCut := false })
  else if x.position + 1 ≥ s.segLength seg then
    (.picture (s.readCell seg x.position), { x with position := 0, repeatCut := true })
  else (.picture (s.readCell seg x.position), { x with position := x.position + 1 })

end Sys2Proof.Machine
end

