-- ==== Sys2Proof/Machine/Lines.lean ====
section
/-! DEFINITION. The port operations of 7.2 to 7.5 and 7.8: linking, stalling, draining, modes, claims, wakes. -/
namespace Sys2Proof.Machine

/-! ## Linking (R145, R146) -/

/-- R145, R200: a LINK cell of a port, which has no source note. -/
def State.linkCell (s : State) (p : Port) : Staged := s.build p .link false

/-- R145: the port record at the entry to LINKING, with the first LINK cell in the next place. -/
def PortRec.linking (cell : Staged) (r : PortRec) : PortRec :=
  { r with state := .linking, linkCount := 0, linkTimer := true, holdTimer := false, retryTimer := false, linkSent := false,
           boundaryHold := false, nextPlace := some cell }

/-- R145: the port enters LINKING; the Notice Queue is told (R129). -/
def State.enterLinking (p : Port) (s : State) : State := (s.setPort p ((s.port p).linking (s.linkCell p))).selectPort p

/-! ## Port-event claims (R158) -/

/-- R158: a new claim of a kind that waits raises its occurrence count; otherwise it joins the port's claims. -/
def addClaim (e : PortEvent) (cs : List PortClaim) : List PortClaim :=
  if cs.any (fun c => c.event.kind = e.kind) then
    cs.map fun c => if c.event.kind = e.kind then { c with occurrences := min 255 (c.occurrences + 1) } else c
  else cs ++ [{ event := e, occurrences := 1 }]

/-- R158: a port makes a claim. -/
def State.addPortClaim (p : Port) (e : PortEvent) (s : State) : State :=
  s.withClaim fun t => t.setPort p { t.port p with claims := addClaim e (t.port p).claims }

/-- R146: the port record at LINKING to READY. -/
def PortRec.linked (r : PortRec) : PortRec :=
  { r with state := .ready, linkTimer := false, liveGap := true, spacing := 0, keepAlive := .running,
           darkOwed := r.darkOwed || decide (r.settings.mode = .dark), restoreDue := none }

/-- R146: the PORT_RESTORED claim, when restore due was on. -/
def State.claimRestore (p : Port) (due : Option RestoreDue) (s : State) : State :=
  match due with
  | some d => s.addPortClaim p (.restored d.stallTime s.now d.retries)
  | none => s

/-- R146, R107: an ACTIVE context begins again with its CUT. -/
def State.cutFirst (p : Port) (s : State) : State :=
  match (s.ctx p).run? with
  | none => s
  | some r => if r.suspended then s else s.setCtx p (.running { r with cutDue := true })

/-- R146: LINKING to READY. -/
def State.linkReady (p : Port) (s : State) : State :=
  let t := ((s.setPort p (s.port p).linked).repaint p).cutFirst p
  ((t.setSlot p (t.slot p).resend).selectPort p).claimRestore p (s.port p).restoreDue

/-! ## Slips, stalls, draining (R143, R147, R149) -/

/-- R143: a slip of a READY port. -/
def State.slipPort (p : Port) (s : State) : State :=
  let t := (s.flushStaging p).flushLive p
  ((t.setPort p { t.port p with keepAlive := .stopped }).restartWord p).enterLinking p

/-- R147: the port record at a stall. -/
def PortRec.stalled (r : PortRec) : PortRec :=
  { r with state := .stalled, linkTimer := false, holdTimer := false, keepAlive := .stopped, retryTimer := true }

/-- R147, last part: restore due, and the PORT_STALLED claim of a first stall. -/
def State.noteStall (p : Port) (cause : StallCause) (stalledFrom : PortState) (s : State) : State :=
  match (s.port p).restoreDue with
  | some d => s.setPort p { s.port p with restoreDue := some { d with retries := min 255 (d.retries + 1) } }
  | none =>
    let t := s.setPort p { s.port p with restoreDue := some { stallTime := s.now, retries := 0 } }
    t.addPortClaim p (.stalled cause stalledFrom s.now)

/-- R147: the port stalls. -/
def State.stall (p : Port) (cause : StallCause) (s : State) : State :=
  let t := (s.flushStaging p).flushLive p
  (((t.setPort p (t.port p).stalled).selectPort p).portEndsRun p .portStalled).noteStall p cause (s.port p).state

/-- R149: the port record at the entry to OFF. -/
def PortRec.switchedOff (r : PortRec) : PortRec :=
  { r with state := .off, linkTimer := false, holdTimer := false, retryTimer := false, keepAlive := .stopped,
           restoreDue := none }

/-- R149: a DRAINING port whose places are both empty enters OFF; the Notice Queue is told (R129). -/
def State.drainDone (p : Port) (s : State) : State :=
  if (s.port p).state = .draining ∧ (s.port p).nextPlace = none ∧ (s.port p).sendingPlace = none then
    (s.setPort p (s.port p).switchedOff).selectPort p
  else s

/-- R149: the staging of a DRAINING port is flushed, and the port enters OFF. -/
def State.flushDraining (p : Port) (s : State) : State := (s.flushStaging p).drainDone p

/-! ## Panel modes (R151) -/

/-- R151: LIVE is left: the mode cause, and the live buffer. -/
def State.leaveLive (p : Port) (s : State) : State := (s.suspend p).flushLive p

/-- R151: DARK owed, written. -/
def State.setDarkOwed (p : Port) (b : Bool) (s : State) : State := s.setPort p { s.port p with darkOwed := b }

/-- R151: the mode setting, written. -/
def State.setMode (p : Port) (m : PanelMode) (s : State) : State :=
  s.setPort p { s.port p with settings := { (s.port p).settings with mode := m } }

/-- R151: a change of panel mode, by the modes before and after. -/
def State.modeChange (p : Port) (m : PanelMode) (s : State) : State :=
  let t := s.setMode p m
  match (s.port p).settings.mode, m with
  | .live, .live => s
  | .quiet, .quiet => s
  | .dark, .dark => s
  | .live, .quiet => (t.leaveLive p).selectPort p
  | .live, .dark => ((t.leaveLive p).setDarkOwed p true).selectPort p
  | .quiet, .dark => (t.setDarkOwed p true).selectPort p
  | .quiet, .live => (t.selectPort p).resume p
  | .dark, .live => (((t.setDarkOwed p false).repaint p).selectPort p).resume p
  | .dark, .quiet => ((t.setDarkOwed p false).repaint p).selectPort p

/-- R131: whether a post of a priority wakes a port. -/
def PortRec.wakes (r : PortRec) (priority : Nat) : Bool :=
  decide (r.settings.mode = .dark) && decide (r.settings.wakeLevel ≤ priority)

/-- R131: a wake by the notice of key `k`. The slot is selected with the mode change (R151), before the PANEL_WOKEN claim is made; R123
names the wakes before the selections, so this order is the model's choice (log 40). -/
def State.wake (k : DeskTag) (priority : Nat) (p : Port) (s : State) : State :=
  (s.modeChange p .live).addPortClaim p (.woken k priority s.now)

/-- R132: the first notice, in table order, that keeps a port from DARK at a wake level. -/
def State.wakeNotice (s : State) (p : Port) (wakeLevel : Nat) : Option Notice :=
  s.nq.notices.find? fun n => n.state.isOpen && PortSet.has n.targets p && decide (wakeLevel ≤ n.priority)

end Sys2Proof.Machine
end

