-- ==== Sys2Proof/Machine/Orders.lean ====
section
/-! DEFINITION. What every order shares (9.1, 9.2): the order in progress, the checks of R186, the answer, and placing the
reply. -/
namespace Sys2Proof.Machine

/-- What an order answers: outcome, reason, and the reply fields that follow the common part. -/
structure Answer where
  outcome : ReplyOutcome
  reason : Reason
  body : List Fld
  deriving DecidableEq, Repr

/-- ACCEPTED with reason NONE. -/
def Answer.ok (body : List Fld) : Answer := { outcome := .accepted, reason := .none, body := body }
/-- ACCEPTED with the reason of a refusal. -/
def Answer.refuse (reason : Reason) (body : List Fld) : Answer := { outcome := .accepted, reason := reason, body := body }

/-- R170: the oldest intake cell, while no UNIT RESET is in progress. -/
def State.inProgress (s : State) : Option (List Byte) := if s.oh.reset.isSome then none else s.fri.intake.head?

/-- R170, R186: the order in progress, when it carries the code `code` (log 1). -/
def State.orderOf (s : State) (code : Nat) : Option (List Byte) :=
  s.inProgress.filter fun c => decide (cellKind c = kindOrder) && decide ((orderHead c).code = code)

/-- R187: the codes that may be broadcast. -/
def mayBroadcast (code : Nat) : Bool := [0x01, 0x08].contains code
/-- R188: the codes that do not test the clock guard. -/
def guardExempt (code : Nat) : Bool := [0x01, 0x02, 0x08, 0x09].contains code

/-- R186: how the common checks end: a refusal (with the unchecked mark of BAD_CELL), or the order's own fields. -/
inductive Checked (α : Type) where
  | refused (unchecked : Bool) (reason : Reason) (body : List Fld)
  | passed (fields : α)
  deriving DecidableEq, Repr

/-- R186, checks 1 and 3 to 5, in their sequence. `parse` gives the order's own fields when all are in range; `base` gives
what every reply of the order carries, for the record that the cell names as it stands, damaged or not (log 16). -/
def checkOrder {α : Type} (parse : List Byte → Option α) (base : List Byte → State → List Fld) (c : List Byte) (s : State) :
    Checked α :=
  if !payloadOk c then .refused true .badCell (base c s)
  else if cellDest c = Config.broadcastAddress ∧ ¬ mayBroadcast (orderHead c).code then .refused false .badAddress (base c s)
  else if (orderHead c).desk > 31 ∨ (orderHead c).key > 15 then .refused false .badField (base c s)
  else match parse c with
    | none => .refused false .badField (base c s)
    | some a =>
      if (orderHead c).guard ∧ ¬ guardExempt (orderHead c).code ∧ ¬ s.tb.clock.isRunning then
        .refused false .clockUnset (base c s)
      else .passed a

/-- R177, R170: a reply takes the order's reservation and joins the back of the queue; the intake place frees. -/
def State.placeReply (s : State) (r : Reply) : State :=
  { s with fri := { s.fri with queue := s.fri.queue ++ [.reply r], reservations := s.fri.reservations - 1,
                               intake := s.fri.intake.tail } }

/-- The reply to the order in cell `c` (R185, R189). -/
def replyTo (s : State) (c : List Byte) (unchecked : Bool) (a : Answer) : Reply :=
  { code := (orderHead c).code, tag := (orderHead c).tag, desk := (orderHead c).desk, unchecked := unchecked,
    outcome := a.outcome, reason := a.reason, placed := s.now, body := a.body }

/-- The answer to the order in cell `c` is placed. -/
def State.answer (s : State) (c : List Byte) (a : Answer) : State := s.placeReply (replyTo s c false a)

/-- One order: find it, check it (R186), and carry it out or refuse it with one reply. -/
def State.order {α : Type} (code : Nat) (parse : List Byte → Option α) (base : List Byte → State → List Fld)
    (act : OrderHead → α → State → State × Answer) (s : State) : State :=
  match s.orderOf code with
  | none => s
  | some c =>
    match checkOrder parse base c s with
    | .refused unchecked reason body => s.placeReply (replyTo s c unchecked (.refuse reason body))
    | .passed a => (act (orderHead c) a s).1.answer c (act (orderHead c) a s).2

/-! ## Shared parsers -/

/-- No own fields. -/
def parseNone (_ : List Byte) : Option Unit := some ()
/-- No reply fields beyond the common part. -/
def baseNone (_ : List Byte) (_ : State) : List Fld := []

/-- The first own field, of `w` bits. -/
def firstField (c : List Byte) (w : Nat) : Nat := fieldAt (payloadNat c) ownBits w

/-- One own field of `w` bits, at most `top`. -/
def parseOne (w top : Nat) (c : List Byte) : Option Nat :=
  if firstField c w ≤ top then some (firstField c w) else none

/-- A port number, 0 to 11, as the first own field. -/
def parsePort (c : List Byte) : Option Port := if h : firstField c 4 < 12 then some ⟨firstField c 4, h⟩ else none

/-- A show number, 0 to 95, as the first own field. -/
def parseShow : List Byte → Option Nat := parseOne 7 95
/-- A segment number as the first own field: 10 bits hold no number out of range. -/
def parseSegment : List Byte → Option Nat := parseOne 10 1023

/-- A key (desk, tag) as the first own fields: 5 and 16 bits hold no value out of range. -/
def parseKey (c : List Byte) : Option DeskTag :=
  match orderFields c [5, 16] with
  | [d, t] => some { desk := d, tag := t }
  | _ => none

/-! ## What every reply of a group of orders carries -/

/-- 1.4: show number, and the phase and effective start of an occupied slot (log 17). -/
def State.showBase (n : Nat) (s : State) : List Fld :=
  Fld.showNo n :: (Fld.opt 3 ((s.showAt n).map fun x => x.phase.code) ++ Fld.opt 11 ((s.showAt n).map Show.effStart))

/-- The base part of a show order's reply. -/
def baseShow (c : List Byte) (s : State) : List Fld := s.showBase (firstField c 7)

/-- R41: the tally part of an order that names a show in its first own field. -/
def baseTally (c : List Byte) (s : State) : List Fld := s.tallyPart (some (firstField c 7))

/-- R41: the tally part of an order that names a hold key. -/
def State.keyTally (k : DeskTag) (s : State) : List Fld := s.tallyPart ((s.holdAt k).map Hold.showNo)

/-- The base part of a reply to an order that names a hold key. -/
def baseKeyTally (c : List Byte) (s : State) : List Fld :=
  match parseKey c with
  | some k => s.keyTally k
  | none => s.tallyPart none

/-- R201: the state code of a segment record. -/
def State.segCode (s : State) (n : Nat) : Nat :=
  match s.segAt n with
  | some g => g.state.code
  | none => 0

/-- R71: segment number and state. -/
def State.segBase (n : Nat) (s : State) : List Fld := [.num 10 n, .num 2 (s.segCode n)]
/-- The base part of a segment order's reply. -/
def baseSegment (c : List Byte) (s : State) : List Fld := s.segBase (firstField c 10)

/-- 7.9: port, port state, panel mode, context state. -/
def State.portBase (p : Port) (s : State) : List Fld :=
  [.num 4 p.val, .num 3 (s.port p).state.code, .num 2 (s.port p).settings.mode.code, .num 2 (s.ctx p).code]
/-- The base part of a port order's reply; a number above 11 has no port to read (log 16). -/
def basePort (c : List Byte) (s : State) : List Fld :=
  match parsePort c with
  | some p => s.portBase p
  | none => []

end Sys2Proof.Machine
end

