-- ==== Sys2Proof/Machine/Timekeeping.lean ====
section
/-! DEFINITION. Power, the Timebase and the deliveries it makes: POWER_ON, RUN_SECOND, HOLD_EXPIRY, CLOCK_SECOND,
MINUTE_EVENT, BOARD_MINUTE_EVENT, END_NOTICE, and the orders CLOCK SET and CLOCK READ. -/
namespace Sys2Proof.Machine

/-- R195: every owner at its power-on values, the straps read. The HOLD lines keep their levels, which the panels set, and
the commands already sent stay in their queue (log 4). -/
def State.powerOn (straps : BitVec 5) (s : State) : State :=
  { State.atPowerOn straps (s.pp.ports.map PortRec.hold) (s.epoch + 1) with pending := s.pending }

/-- POWER_ON (R195). -/
def execPowerOn (straps : BitVec 5) (s : State) : Host.Outcome State Fault Refusal := .next (s.powerOn straps)

/-- R1: the count rises by one and its event goes to the Seat Tally and the Notice Queue; at its last value it stays, without
events (log 25). -/
def State.runSecond (s : State) : State :=
  if s.tb.runSeconds < Config.lastRunSecond then
    { s with
      tb := { s.tb with runSeconds := s.tb.runSeconds + 1 }
      paths := { s.paths with tallySeconds := s.paths.tallySeconds ++ [s.tb.runSeconds + 1],
                              noticeSeconds := s.paths.noticeSeconds ++ [s.tb.runSeconds + 1] } }
  else s

/-- RUN_SECOND (R1). -/
def execRunSecond (s : State) : Host.Outcome State Fault Refusal := .next s.runSecond

/-- R42: the Seat Tally takes the oldest run-second event, with the end notices of R44 before it. -/
def State.holdExpiry (s : State) : State :=
  match s.paths.tallySeconds with
  | [] => s
  | count :: rest =>
    (({ s with paths := { s.paths with tallySeconds := rest } } : State).endNoticesDue count).expiryPass count

/-- HOLD_EXPIRY (R42). -/
def execHoldExpiry (s : State) : Host.Outcome State Fault Refusal := .next s.holdExpiry

/-- R2, R3: the minute after `m`; the lobby day rolls after minute 1799. -/
def minuteAfter (m : Nat) : Nat := if m < Config.lastMinute then m + 1 else 0

/-- R2, R5: a minute event on its way to the Board Composer. -/
def State.deliverBoardMinute (m : Nat) (s : State) : State :=
  { s with paths := { s.paths with boardMinutes := s.paths.boardMinutes ++ [m] } }

/-- R2: a minute event on its way to the Show Table and the Board Composer. -/
def State.deliverMinute (m : Nat) (s : State) : State :=
  ({ s with paths := { s.paths with showMinutes := s.paths.showMinutes ++ [m] } } : State).deliverBoardMinute m

/-- R3: the claim of a roll, made or added to. -/
def rollClaim (time : Nat) : Option DayRolled → DayRolled
  | none => { runSecond := time, rolls := 1 }
  | some c => { c with rolls := min 255 (c.rolls + 1) }

/-- R3: the Timebase makes or adds to the DAY_ROLLED claim. -/
def State.claimRoll (s : State) : State :=
  s.withClaim fun t => { t with tb := { t.tb with dayRolled := some (rollClaim t.now t.tb.dayRolled) } }

/-- The clock, written. -/
def State.setClock (c : LobbyClock) (s : State) : State := { s with tb := { s.tb with clock := c } }

/-- R2, R3: one second of the lobby clock. -/
def State.clockSecond (s : State) : State :=
  match s.tb.clock with
  | .unset => s
  | .running m x =>
    if x + 1 < 60 then s.setClock (.running m (x + 1))
    else
      let t := (s.setClock (.running (minuteAfter m) 0)).deliverMinute (minuteAfter m)
      if m < Config.lastMinute then t else t.claimRoll

/-- CLOCK_SECOND (R2). -/
def execClockSecond (s : State) : Host.Outcome State Fault Refusal := .next s.clockSecond

/-- R18: the Show Table takes its oldest minute event, at the minute the event carries. -/
def State.minuteEvent (s : State) : State :=
  match s.paths.showMinutes with
  | [] => s
  | m :: rest => ({ s with paths := { s.paths with showMinutes := rest } } : State).minutePass m

/-- MINUTE_EVENT (R18). -/
def execMinuteEvent (s : State) : Host.Outcome State Fault Refusal := .next s.minuteEvent

/-- R53: the Board Composer takes its oldest minute event; R50: it discards it while it has taken a UNIT RESET whose reply is
not yet placed. -/
def State.boardMinuteEvent (s : State) : State :=
  match s.paths.boardMinutes with
  | [] => s
  | m :: rest =>
    let t : State := { s with paths := { s.paths with boardMinutes := rest } }
    if s.resetTaken .boardComposer then t else t.boardMinute m

/-- BOARD_MINUTE_EVENT (R53). -/
def execBoardMinuteEvent (s : State) : Host.Outcome State Fault Refusal := .next s.boardMinuteEvent

/-- R43: the Seat Tally takes its oldest end notice. -/
def State.endNotice (s : State) : State :=
  match s.paths.endNotices with
  | [] => s
  | (n, cause) :: rest => ({ s with paths := { s.paths with endNotices := rest } } : State).endPassPlaced n cause

/-- END_NOTICE (R43). -/
def execEndNotice (s : State) : Host.Outcome State Fault Refusal := .next s.endNotice

/-! ## CLOCK SET, CLOCK READ -/

/-- R5: minute 0–1799 in 11 bits, second 0–59 in 6. -/
def parseClockSet (c : List Byte) : Option (Nat × Nat) :=
  match orderFields c [11, 6] with
  | [m, x] => if m ≤ Config.lastMinute ∧ x ≤ 59 then some (m, x) else none
  | _ => none

/-- R201: the clock as replies carry it. -/
def LobbyClock.fields (c : LobbyClock) : List Fld := [.num 1 c.code, Fld.minute c.minute, .num 6 c.second]

/-- R5. -/
def actClockSet (_ : OrderHead) (a : Nat × Nat) (s : State) : State × Answer :=
  (((s.setClock (.running a.1 a.2)).minutePass a.1).deliverBoardMinute a.1,
   .ok (s.tb.clock.fields ++ [Fld.minute a.1, .num 6 a.2, .num 7 (s.phaseChanges a.1)]))

/-- CLOCK_SET (R5). -/
def execClockSet (s : State) : Host.Outcome State Fault Refusal := .next (s.order 0x08 parseClockSet baseNone actClockSet)

/-- R6. One bit says whether a DAY_ROLLED claim waits, and is the presence bit of its count (log 17). -/
def actClockRead (_ : OrderHead) (_ : Unit) (s : State) : State × Answer :=
  (s, .ok (s.tb.clock.fields ++ [Fld.seconds s.now] ++ Fld.opt 8 (s.tb.dayRolled.map DayRolled.rolls)))

/-- CLOCK_READ (R6). -/
def execClockRead (s : State) : Host.Outcome State Fault Refusal := .next (s.order 0x09 parseNone baseNone actClockRead)

end Sys2Proof.Machine
end

