-- ==== Sys2Proof/Machine/Shows.lean ====
section
/-! DEFINITION. The title and show orders (1.2, 1.4). -/
namespace Sys2Proof.Machine

/-! ## Titles -/

/-- The occupied shows that name a title, lowest first (R7). -/
def State.showsOf (s : State) (title : Nat) : List Nat := (s.st.shows.filter fun e => e.2.title = title).map Prod.fst

/-- R8: title number 0–63, text of 1–40 characters of the set. -/
def parseTitleLoad (c : List Byte) : Option (Nat × List Byte) :=
  match orderFields c [6, 6] with
  | [n, len] =>
    let text := textAt (payloadNat c) (ownBits + 12) len
    if 1 ≤ len ∧ len ≤ 40 ∧ text.all charOk then some (n, text) else none
  | _ => none

/-- A title's place, written. -/
def State.setTitle (n : Nat) (text : List Byte) (s : State) : State :=
  { s with st := { s.st with titles := Tbl.put s.st.titles n text } }

/-- R8. -/
def actTitleLoad (_ : OrderHead) (a : Nat × List Byte) (s : State) : State × Answer :=
  let t := s.setTitle a.1 a.2
  let replaced := (s.titleAt a.1).isSome && decide (s.titleAt a.1 ≠ some a.2)
  (if replaced then t.showChanges (s.showsOf a.1) else t,
   .ok [Fld.yes (s.titleAt a.1).isSome, .num 7 (s.showsOf a.1).length])

/-- TITLE_LOAD (R8). -/
def execTitleLoad (s : State) : Host.Outcome State Fault Refusal := .next (s.order 0x10 parseTitleLoad baseNone actTitleLoad)

/-- R9. -/
def actTitleClear (_ : OrderHead) (n : Nat) (s : State) : State × Answer :=
  if (s.titleAt n).isNone then (s, .refuse .noSuchTitle [])
  else match s.showsOf n with
    | k :: _ => (s, .refuse .titleInUse [Fld.showNo k])
    | [] => ({ s with st := { s.st with titles := Tbl.erase s.st.titles n } }, .ok [])

/-- TITLE_CLEAR (R9). -/
def execTitleClear (s : State) : Host.Outcome State Fault Refusal :=
  .next (s.order 0x11 (parseOne 6 63) baseNone actTitleClear)

/-! ## SHOW LOAD -/

/-- The nine fields of SHOW LOAD and of SHOW EDIT's mask (R20, R22). -/
structure ShowFields where
  auditorium : Nat
  title : Nat
  start : Nat
  doors : Nat
  window : Nat
  format : Nat
  capacity : Nat
  few : Nat
  band : Nat
  deriving DecidableEq, Repr

/-- R10: the ranges. -/
def ShowFields.inRange (f : ShowFields) : Bool :=
  decide (1 ≤ f.auditorium ∧ f.auditorium ≤ 24 ∧ f.title ≤ 63 ∧ f.start ≤ Config.lastMinute ∧ f.doors ≤ 60 ∧ f.window ≤ 60
    ∧ f.format ≤ 15 ∧ 1 ≤ f.capacity ∧ f.capacity ≤ 999 ∧ f.few ≤ 999 ∧ f.band ≤ 63)

/-- R20: show number and the nine fields. -/
def parseShowLoad (c : List Byte) : Option (Nat × ShowFields) :=
  match orderFields c [7, 5, 6, 11, 6, 6, 4, 10, 10, 6] with
  | [n, auditorium, title, start, doors, window, format, capacity, few, band] =>
    let f : ShowFields := { auditorium, title, start, doors, window, format, capacity, few, band }
    if n ≤ 95 ∧ f.inRange then some (n, f) else none
  | _ => none

/-- R20: the new record. -/
def ShowFields.record (f : ShowFields) : Show :=
  { auditorium := f.auditorium, title := f.title, start := f.start, delay := 0, doors := f.doors, window := f.window,
    format := f.format, capacity := f.capacity, few := f.few, band := f.band, phase := .draft, cancelledListed := false,
    sold := 0, held := 0, avail := if f.capacity ≤ f.few then .few else .opn }

/-- R20, condition 1: whether the slot is EMPTY or holds a DRAFT record. -/
def State.loadable (s : State) (n : Nat) : Bool :=
  match s.showAt n with
  | some x => decide (x.phase = .draft)
  | none => true

/-- The tally fields a show order's reply carries, for the record as it stands. -/
def State.tallyAfter (s : State) (n : Nat) : List Fld :=
  match s.showAt n with
  | some x => x.tallyFields
  | none => []

/-- R20. -/
def actShowLoad (_ : OrderHead) (a : Nat × ShowFields) (s : State) : State × Answer :=
  if !s.loadable a.1 then (s, .refuse .wrongPhase (s.showBase a.1))
  else if a.2.start + a.2.window > Config.lastMinute then (s, .refuse .badField (s.showBase a.1))
  else
    let t := (s.setShow a.1 a.2.record).showChange a.1
    (t, .ok (t.showBase a.1 ++ t.tallyAfter a.1))

/-- SHOW_LOAD (R20). -/
def execShowLoad (s : State) : Host.Outcome State Fault Refusal := .next (s.order 0x12 parseShowLoad baseShow actShowLoad)

/-! ## SHOW PUBLISH -/

/-- R21. -/
def actShowPublish (_ : OrderHead) (n : Nat) (s : State) : State × Answer :=
  match s.showAt n with
  | none => (s, .refuse .noSuchShow (s.showBase n))
  | some x =>
    if x.phase ≠ .draft then (s, .refuse .wrongPhase (s.showBase n))
    else if (s.titleAt x.title).isNone then (s, .refuse .noSuchTitle (s.showBase n))
    else
      let t := ((s.setShow n { x with phase := .selling }).evaluate n).showChange n
      (t, .ok (t.showBase n))

/-- SHOW_PUBLISH (R21). -/
def execShowPublish (s : State) : Host.Outcome State Fault Refusal := .next (s.order 0x13 parseShow baseShow actShowPublish)

/-! ## SHOW EDIT -/

/-- R22: the values of the fields the mask names. -/
structure ShowEdit where
  showNo : Nat
  auditorium : Option Nat
  title : Option Nat
  start : Option Nat
  doors : Option Nat
  window : Option Nat
  format : Option Nat
  capacity : Option Nat
  few : Option Nat
  band : Option Nat
  deriving DecidableEq, Repr

/-- R199 item 7: a mask of `k` bits at bit `pos`, first field first. -/
def maskAt (pay pos k : Nat) : List Bool := (List.range k).map fun i => decide (fieldAt pay (pos + i) 1 = 1)

/-- R199 item 7: the values of the named fields, one width for each mask bit. -/
def maskedAt (pay : Nat) : Nat → List (Bool × Nat) → List (Option Nat)
  | _, [] => []
  | pos, (true, w) :: rest => some (fieldAt pay pos w) :: maskedAt pay (pos + w) rest
  | pos, (false, _) :: rest => none :: maskedAt pay pos rest

/-- A value that is named lies within its range. -/
def optIn (lo hi : Nat) : Option Nat → Bool
  | none => true
  | some v => decide (lo ≤ v ∧ v ≤ hi)

/-- R22, R186: the ranges of the named fields, and at least one field named. -/
def ShowEdit.inRange (e : ShowEdit) : Bool :=
  decide (e.showNo ≤ 95) && optIn 1 24 e.auditorium && optIn 0 63 e.title && optIn 0 Config.lastMinute e.start
    && optIn 0 60 e.doors && optIn 0 60 e.window && optIn 0 15 e.format && optIn 1 999 e.capacity && optIn 0 999 e.few
    && optIn 0 63 e.band
    && (e.auditorium.isSome || e.title.isSome || e.start.isSome || e.doors.isSome || e.window.isSome || e.format.isSome
      || e.capacity.isSome || e.few.isSome || e.band.isSome)

/-- R22: show number, mask, values. -/
def parseShowEdit (c : List Byte) : Option ShowEdit :=
  let pay := payloadNat c
  match maskedAt pay (ownBits + 16) ((maskAt pay (ownBits + 7) 9).zip [5, 6, 11, 6, 6, 4, 10, 10, 6]) with
  | [auditorium, title, start, doors, window, format, capacity, few, band] =>
    let e : ShowEdit :=
      { showNo := firstField c 7, auditorium, title, start, doors, window, format, capacity, few, band }
    if e.inRange then some e else none
  | _ => none

/-- R22: whether the phase allows every field the mask names. -/
def ShowEdit.allowed (e : ShowEdit) : Phase → Bool
  | .draft => true
  | .selling | .seating => e.auditorium.isNone && e.start.isNone
  | .running =>
    e.auditorium.isNone && e.start.isNone && e.title.isNone && e.doors.isNone && e.capacity.isNone
  | .ended | .cancelled => false

/-- R22: the record with the new values, written together. -/
def ShowEdit.apply (e : ShowEdit) (x : Show) : Show :=
  { x with auditorium := e.auditorium.getD x.auditorium, title := e.title.getD x.title, start := e.start.getD x.start,
           doors := e.doors.getD x.doors, window := e.window.getD x.window, format := e.format.getD x.format,
           capacity := e.capacity.getD x.capacity, few := e.few.getD x.few, band := e.band.getD x.band }

/-- R22: a phase in which conditions 3 and 5 are tested. -/
def Phase.sells (p : Phase) : Bool := decide (p = .selling) || decide (p = .seating)

/-- R22, conditions 2 to 5 in order. -/
def ShowEdit.refusal (e : ShowEdit) (x : Show) (s : State) : Option Reason :=
  if !e.allowed x.phase then some .wrongPhase
  else if x.phase.sells && (e.title.any fun n => (s.titleAt n).isNone) then some .noSuchTitle
  else if (e.apply x).effStart + (e.apply x).window > Config.lastMinute then some .badField
  else if x.phase.sells && (e.capacity.any fun k => decide (k < x.sold + x.held)) then some .notEnoughSeats
  else none

/-- R30: whether the Seat Tally is handed a change. -/
def tallyTouched (x y : Show) : Bool := decide (x.capacity ≠ y.capacity ∨ x.few ≠ y.few ∨ x.band ≠ y.band)

/-- R22: whether the change leads to an evaluation. -/
def evaluationTouched (x y : Show) : Bool := decide (x.doors ≠ y.doors ∨ x.window ≠ y.window)

/-- R22, R30: the effects of an accepted edit of record `x`. -/
def State.editShow (e : ShowEdit) (x : Show) (s : State) : State :=
  let y := e.apply x
  let t := s.setShow e.showNo y
  let u := if tallyTouched x y then t.settleTally e.showNo (some x) else t
  (if evaluationTouched x y then u.evaluate e.showNo else u).announce e.showNo x

/-- R22. -/
def actShowEdit (_ : OrderHead) (e : ShowEdit) (s : State) : State × Answer :=
  match s.showAt e.showNo with
  | none => (s, .refuse .noSuchShow (s.showBase e.showNo))
  | some x =>
    match e.refusal x s with
    | some r => (s, .refuse r (s.showBase e.showNo))
    | none =>
      let t := s.editShow e x
      (t, .ok (t.showBase e.showNo ++ t.tallyAfter e.showNo))

/-- SHOW_EDIT (R22). -/
def execShowEdit (s : State) : Host.Outcome State Fault Refusal := .next (s.order 0x14 parseShowEdit baseShow actShowEdit)

/-! ## SHOW DELAY, SHOW CANCEL, SHOW DROP, SHOW READ -/

/-- R23: show number, delay 0–240. -/
def parseShowDelay (c : List Byte) : Option (Nat × Nat) :=
  match orderFields c [7, 8] with
  | [n, d] => if n ≤ 95 ∧ d ≤ 240 then some (n, d) else none
  | _ => none

/-- R23. -/
def actShowDelay (_ : OrderHead) (a : Nat × Nat) (s : State) : State × Answer :=
  match s.delayRefusal a.1 a.2 with
  | some r => (s, .refuse r (s.showBase a.1))
  | none => (s.delayShow a.1 a.2, .ok ((s.delayShow a.1 a.2).showBase a.1))

/-- SHOW_DELAY (R23). -/
def execShowDelay (s : State) : Host.Outcome State Fault Refusal := .next (s.order 0x15 parseShowDelay baseShow actShowDelay)

/-- R24: sold, held, free and availability, in the order R24 lists them. -/
def Show.cancelFields (x : Show) : List Fld := [Fld.seats x.sold, Fld.seats x.held, Fld.seats x.free, .num 2 x.avail.code]

/-- The fields of R24 for a slot. -/
def State.cancelAfter (s : State) (n : Nat) : List Fld :=
  match s.showAt n with
  | some x => x.cancelFields
  | none => []

/-- R24. -/
def actShowCancel (_ : OrderHead) (n : Nat) (s : State) : State × Answer :=
  match s.cancelRefusal n with
  | some r => (s, .refuse r (s.showBase n))
  | none => (s.cancelShow n, .ok ((s.cancelShow n).showBase n ++ (s.cancelShow n).cancelAfter n))

/-- SHOW_CANCEL (R24). -/
def execShowCancel (s : State) : Host.Outcome State Fault Refusal := .next (s.order 0x16 parseShow baseShow actShowCancel)

/-- R25, taken after an untaken end notice of the show (R44). -/
def dropShow (n : Nat) (s : State) : State × Answer :=
  match s.showAt n with
  | none => (s, .refuse .noSuchShow (s.showBase n))
  | some x =>
    if x.phase.isOpen then (s, .refuse .wrongPhase (s.showBase n))
    else ((s.clearShow n).showChange n, .ok (((s.clearShow n).showChange n).showBase n))

/-- R25, R44. -/
def actShowDrop (_ : OrderHead) (n : Nat) (s : State) : State × Answer := s.afterNotice n (dropShow n)

/-- SHOW_DROP (R25). -/
def execShowDrop (s : State) : Host.Outcome State Fault Refusal := .next (s.order 0x17 parseShow baseShow actShowDrop)

/-- R26: every field of the record; the listing is tested at the present minute (R15, log 12). -/
def State.showReadFields (s : State) (x : Show) : List Fld :=
  [.num 5 x.auditorium, .num 6 x.title, Fld.minute x.start, .num 8 x.delay, Fld.minute x.effStart, .num 6 x.doors,
   .num 6 x.window, .num 4 x.format, Fld.seats x.capacity, Fld.seats x.few, .num 6 x.band, .num 3 x.phase.code]
    ++ Fld.text 6 ((s.titleAt x.title).getD [])
    ++ [Fld.seats x.sold, Fld.seats x.held, Fld.seats x.free, .num 2 x.avail.code,
        Fld.yes (x.listedAt s.tb.clock.minute), Fld.yes x.gateOpen]

/-- R26, taken after an untaken end notice of the show (R44). -/
def readShow (n : Nat) (s : State) : State × Answer :=
  match s.showAt n with
  | none => (s, .refuse .noSuchShow [])
  | some x => (s, .ok (s.showReadFields x))

/-- R26, R44. -/
def actShowRead (_ : OrderHead) (n : Nat) (s : State) : State × Answer := s.afterNotice n (readShow n)

/-- SHOW_READ (R26). -/
def execShowRead (s : State) : Host.Outcome State Fault Refusal := .next (s.order 0x18 parseShow baseNone actShowRead)

end Sys2Proof.Machine
end

