-- ==== Sys2Proof/Machine/Seats.lean ====
section
/-! DEFINITION. The seat orders (2.3). -/
namespace Sys2Proof.Machine

/-! ## SEAT HOLD -/

/-- R33: the fields of SEAT HOLD. -/
structure HoldOrder where
  key : DeskTag
  showNo : Nat
  seats : Nat
  seconds : Nat
  deriving DecidableEq, Repr

/-- R33: key, show 0–95, seats 1–20, hold seconds 0 or 30–900. -/
def parseSeatHold (c : List Byte) : Option HoldOrder :=
  match orderFields c [5, 16, 7, 5, 10] with
  | [d, t, n, k, x] =>
    if n ≤ 95 ∧ 1 ≤ k ∧ k ≤ 20 ∧ (x = 0 ∨ (30 ≤ x ∧ x ≤ 900)) then
      some { key := { desk := d, tag := t }, showNo := n, seats := k, seconds := x }
    else none
  | _ => none

/-- R41: the tally part of the show a SEAT HOLD names. -/
def baseSeatHold (c : List Byte) (s : State) : List Fld := s.tallyPart (some (fieldAt (payloadNat c) (ownBits + 21) 7))

/-- R33: the hold time used. -/
def HoldOrder.time (o : HoldOrder) : Nat := if o.seconds = 0 then Config.defaultHoldSeconds else o.seconds

/-- R33: the new record. -/
def HoldOrder.record (o : HoldOrder) (now : Nat) : Hold :=
  { key := o.key, showNo := o.showNo, seats := o.seats, deadline := now + o.time, state := .live }

/-- R33: the own conditions, in order. -/
def State.holdRefusal (s : State) (o : HoldOrder) : Option Reason :=
  match s.showAt o.showNo with
  | none => some .noSuchShow
  | some x =>
    if !x.phase.isOpen then some .wrongPhase
    else if (s.holdAt o.key).isSome then some .holdExists
    else if s.sq.holds.length ≥ Config.holdPlaces then some .tableFull
    else if x.free < o.seats then some .notEnoughSeats
    else none

/-- A record joins the back of the hold table (R31). -/
def State.joinHold (h : Hold) (s : State) : State := { s with sq := { holds := s.sq.holds ++ [h] } }

/-- R33, once an untaken end notice of the show has been taken. -/
def seatHold (o : HoldOrder) (s : State) : State × Answer :=
  match s.holdRefusal o with
  | some r => (s, .refuse r (s.tallyPart (some o.showNo)))
  | none =>
    let t := (s.joinHold (o.record s.now)).moveTally o.showNo fun x => { x with held := x.held + o.seats }
    (t, .ok (Fld.key o.key ++ [.num 5 o.seats, .num 10 o.time, Fld.seconds (s.now + o.time)]
      ++ t.tallyPart (some o.showNo)))

/-- R33, R44. -/
def actSeatHold (_ : OrderHead) (o : HoldOrder) (s : State) : State × Answer := s.afterNotice o.showNo (seatHold o)

/-- SEAT_HOLD (R33). -/
def execSeatHold (s : State) : Host.Outcome State Fault Refusal :=
  .next (s.order 0x20 parseSeatHold baseSeatHold actSeatHold)

/-! ## SEAT CONFIRM, SEAT RELEASE -/

/-- R44, first case: `act` is taken behind the untaken end notice of the show that the LIVE record of a key names. -/
def State.afterKeyNotice {α : Type} (k : DeskTag) (act : State → State × α) (s : State) : State × α :=
  match s.holdAt k with
  | some h => if h.state.isLive then s.afterNotice h.showNo act else act s
  | none => act s

/-- R34, R35: the hold's own fields. -/
def Hold.replyFields (h : Hold) : List Fld := Fld.key h.key ++ [Fld.showNo h.showNo, .num 5 h.seats]

/-- R36: a LAPSED record is collected: removed, its claim withdrawn with it. -/
def collectLapse (h : Hold) (s : State) : State × Answer :=
  (s.dropHold h.key, .refuse .holdLapsed (h.replyFields ++ h.state.lapseFields ++ s.tallyPart (some h.showNo)))

/-- R34: seats move from held to sold. -/
def Show.confirm (k : Nat) (x : Show) : Show := { x with sold := x.sold + k, held := x.held - k }

/-- Change the record of show `n`, if its slot is occupied. -/
def State.mapShow (n : Nat) (f : Show → Show) (s : State) : State :=
  match s.showAt n with
  | some x => s.setShow n (f x)
  | none => s

/-- R34, R36. Free stays as it was, so R29 has nothing to do. -/
def seatConfirm (k : DeskTag) (s : State) : State × Answer :=
  match s.holdAt k with
  | none => (s, .refuse .noSuchHold (s.tallyPart none))
  | some h =>
    if h.state.isLive then
      let t := (s.dropHold k).mapShow h.showNo (Show.confirm h.seats)
      (t, .ok (h.replyFields ++ t.tallyPart (some h.showNo)))
    else collectLapse h s

/-- R34, R44. -/
def actSeatConfirm (_ : OrderHead) (k : DeskTag) (s : State) : State × Answer := s.afterKeyNotice k (seatConfirm k)

/-- SEAT_CONFIRM (R34). -/
def execSeatConfirm (s : State) : Host.Outcome State Fault Refusal :=
  .next (s.order 0x21 parseKey baseKeyTally actSeatConfirm)

/-- R35, R36. -/
def seatRelease (k : DeskTag) (s : State) : State × Answer :=
  match s.holdAt k with
  | none => (s, .refuse .noSuchHold (s.tallyPart none))
  | some h =>
    if h.state.isLive then
      let t := (s.dropHold k).moveTally h.showNo fun x => { x with held := x.held - h.seats }
      (t, .ok (h.replyFields ++ t.tallyPart (some h.showNo)))
    else collectLapse h s

/-- R35, R44. -/
def actSeatRelease (_ : OrderHead) (k : DeskTag) (s : State) : State × Answer := s.afterKeyNotice k (seatRelease k)

/-- SEAT_RELEASE (R35). -/
def execSeatRelease (s : State) : Host.Outcome State Fault Refusal :=
  .next (s.order 0x22 parseKey baseKeyTally actSeatRelease)

/-! ## SEAT SELL, SEAT REFUND -/

/-- R37, R38: show 0–95, seats 1–20. -/
def parseSeats (c : List Byte) : Option (Nat × Nat) :=
  match orderFields c [7, 5] with
  | [n, k] => if n ≤ 95 ∧ 1 ≤ k ∧ k ≤ 20 then some (n, k) else none
  | _ => none

/-- R37, R38: show number, seats and the tally part. -/
def State.seatReply (s : State) (n k : Nat) : List Fld := [Fld.showNo n, .num 5 k] ++ s.tallyPart (some n)

/-- R37: the own conditions, in order. -/
def State.sellRefusal (s : State) (n k : Nat) : Option Reason :=
  match s.showAt n with
  | none => some .noSuchShow
  | some x => if !x.phase.isOpen then some .wrongPhase else if x.free < k then some .notEnoughSeats else none

/-- R37, once an untaken end notice of the show has been taken. -/
def seatSell (n k : Nat) (s : State) : State × Answer :=
  match s.sellRefusal n k with
  | some r => (s, .refuse r (s.tallyPart (some n)))
  | none =>
    let t := s.moveTally n fun x => { x with sold := x.sold + k }
    (t, .ok (t.seatReply n k))

/-- R37, R44. -/
def actSeatSell (_ : OrderHead) (a : Nat × Nat) (s : State) : State × Answer := s.afterNotice a.1 (seatSell a.1 a.2)

/-- SEAT_SELL (R37). -/
def execSeatSell (s : State) : Host.Outcome State Fault Refusal := .next (s.order 0x23 parseSeats baseTally actSeatSell)

/-- R38: the own conditions, in order. -/
def State.refundRefusal (s : State) (n k : Nat) : Option Reason :=
  match s.showAt n with
  | none => some .noSuchShow
  | some x =>
    if !x.phase.isOpen && decide (x.phase ≠ .cancelled) then some .wrongPhase
    else if x.sold < k then some .notEnoughSeats
    else none

/-- R38, once an untaken end notice of the show has been taken. -/
def seatRefund (n k : Nat) (s : State) : State × Answer :=
  match s.refundRefusal n k with
  | some r => (s, .refuse r (s.tallyPart (some n)))
  | none =>
    let t := s.moveTally n fun x => { x with sold := x.sold - k }
    (t, .ok (t.seatReply n k))

/-- R38, R44. -/
def actSeatRefund (_ : OrderHead) (a : Nat × Nat) (s : State) : State × Answer :=
  s.afterNotice a.1 (seatRefund a.1 a.2)

/-- SEAT_REFUND (R38). -/
def execSeatRefund (s : State) : Host.Outcome State Fault Refusal :=
  .next (s.order 0x24 parseSeats baseTally actSeatRefund)

/-! ## TALLY READ, HOLD READ -/

/-- R39: how many LAPSED records name a show. -/
def State.lapsedCount (s : State) (n : Nat) : Nat :=
  (s.sq.holds.filter fun h => !h.state.isLive && decide (h.showNo = n)).length

/-- R39. -/
def tallyRead (n : Nat) (s : State) : State × Answer :=
  match s.showAt n with
  | none => (s, .refuse .noSuchShow (s.tallyPart (some n)))
  | some x =>
    (s, .ok ([Fld.showNo n, .num 3 x.phase.code, Fld.seats x.capacity, Fld.seats x.few, .num 6 x.band]
      ++ s.tallyPart (some n) ++ [.num 7 (s.liveHolds n).length, .num 7 (s.lapsedCount n)]))

/-- R39, R44. -/
def actTallyRead (_ : OrderHead) (n : Nat) (s : State) : State × Answer := s.afterNotice n (tallyRead n)

/-- TALLY_READ (R39). -/
def execTallyRead (s : State) : Host.Outcome State Fault Refusal := .next (s.order 0x25 parseShow baseTally actTallyRead)

/-- R40: the seconds left while LIVE, the cause and time in LAPSED; each a field that may be absent (R199 item 4, log 17). A
LIVE record read behind its deadline, its run-second event not yet taken, has 0 seconds left (log 31). -/
def Hold.stateFields (h : Hold) (now : Nat) : List Fld :=
  match h.state with
  | .live => Fld.opt 10 (some (h.deadline - now)) ++ Fld.opt 2 none ++ Fld.opt 32 none
  | .lapsed cause time => Fld.opt 10 none ++ Fld.opt 2 (some cause.code) ++ Fld.opt 32 (some time)

/-- R40. -/
def holdRead (k : DeskTag) (s : State) : State × Answer :=
  match s.holdAt k with
  | none => (s, .refuse .noSuchHold (s.tallyPart none))
  | some h =>
    (s, .ok (h.replyFields ++ [Fld.seconds h.deadline, .num 1 h.state.code] ++ h.stateFields s.now
      ++ s.tallyPart (some h.showNo)))

/-- R40, R44. -/
def actHoldRead (_ : OrderHead) (k : DeskTag) (s : State) : State × Answer := s.afterKeyNotice k (holdRead k)

/-- HOLD_READ (R40). -/
def execHoldRead (s : State) : Host.Outcome State Fault Refusal := .next (s.order 0x26 parseKey baseKeyTally actHoldRead)

end Sys2Proof.Machine
end

