-- ==== Sys2Proof/Machine/BoardOrders.lean ====
section
/-! DEFINITION. The board orders (3.5). -/
namespace Sys2Proof.Machine

/-- R62, R63: the fields of BOARD SET. -/
structure BoardOrder where
  port : Port
  rows : Nat
  filter : AuditoriumSet
  window : Nat
  cancelledShown : Bool
  deriving DecidableEq, Repr

/-- R62: rows 0–16, window 0–1440. The filter's 24 bits name no number outside 1–24. That the bit 1 is "on" of cancelled shown is
the model's choice (log 17). -/
def parseBoardSet (c : List Byte) : Option BoardOrder :=
  match parsePort c, orderFields c [4, 5, 24, 11, 1] with
  | some p, [_, rows, filter, window, shown] =>
    if rows ≤ 16 ∧ window ≤ 1440 then
      some { port := p, rows := rows, filter := AuditoriumSet.ofBits filter, window := window,
             cancelledShown := decide (shown = 1) }
    else none
  | _, _ => none

/-- The four settings, as BOARD SET and BOARD READ carry them; cancelled shown is 1 for "on", the model's choice (log 17). -/
def Board.settingFields (b : Board) : List Fld :=
  [.num 5 b.rows, Fld.filter b.filter, .num 11 b.window, Fld.yes b.cancelledShown]

/-- R62, R63. -/
def actBoardSet (_ : OrderHead) (o : BoardOrder) (s : State) : State × Answer :=
  let t := s.setBoard o.port ((s.board o.port).set s.st.shows o.rows o.filter o.window o.cancelledShown)
  (t, .ok ([.num 4 o.port.val] ++ (t.board o.port).settingFields
    ++ [.num 7 (t.qualifyingCount o.port), .num 5 (filledRows (t.board o.port).rowList)]))

/-- BOARD_SET (R63). -/
def execBoardSet (s : State) : Host.Outcome State Fault Refusal := .next (s.order 0x30 parseBoardSet baseNone actBoardSet)

/-- R64: the number of rows now pending. -/
def Board.pendingCount (b : Board) : Nat := ((List.range b.rows).filter fun i => b.pendingRows.getLsbD i).length

/-- R64. -/
def actBoardRepaint (_ : OrderHead) (p : Port) (s : State) : State × Answer :=
  (s.repaint p, .ok [.num 4 p.val, .num 5 ((s.repaint p).board p).pendingCount])

/-- BOARD_REPAINT (R64). -/
def execBoardRepaint (s : State) : Host.Outcome State Fault Refusal :=
  .next (s.order 0x31 parsePort baseNone actBoardRepaint)

/-- R65: row list and pending set of a board. A row's show number or empty mark is a field that may be absent (R199 item 4),
not a choice with a code of its own (item 12): the model's choice (log 17). -/
def Board.rowFields (b : Board) : List Fld :=
  (b.rowList.map (Fld.opt 7)).flatten ++ (List.range b.rows).map fun i => Fld.yes (b.pendingRows.getLsbD i)

/-- R65. -/
def actBoardRead (_ : OrderHead) (p : Port) (s : State) : State × Answer :=
  (s, .ok ((s.board p).settingFields ++ Fld.opt 11 (s.board p).windowMinute ++ (s.board p).rowFields
    ++ [.num 7 (s.qualifyingCount p)]))

/-- BOARD_READ (R65). -/
def execBoardRead (s : State) : Host.Outcome State Fault Refusal := .next (s.order 0x32 parsePort baseNone actBoardRead)

end Sys2Proof.Machine
end

