-- ==== Sys2Proof/Machine/Segments.lean ====
section
/-! DEFINITION. The segment orders and LOAD cells (4.3). -/
namespace Sys2Proof.Machine

/-! ## SEGMENT DEFINE -/

/-- R73: the fields of SEGMENT DEFINE. -/
structure DefineOrder where
  segment : Nat
  firstPage : Nat
  length : Nat
  key : Nat
  deriving DecidableEq, Repr

/-- R73: segment 0–1023, first page 0–262,143 (18 bits), length 1–1,048,576, key 0–15. -/
def parseDefine (c : List Byte) : Option DefineOrder :=
  match orderFields c [10, 18, 21, 4] with
  | [n, p, len, k] =>
    if 1 ≤ len ∧ len ≤ 1048576 then some { segment := n, firstPage := p, length := len, key := k } else none
  | _ => none

/-- The fill mark of a LOADING record (R73, condition 1). -/
def State.loadingFill (s : State) (n : Nat) : Option Nat :=
  match s.segAt n with
  | some g => if g.state = .loading then some g.fill else none
  | none => none

/-- R73: the own conditions in order, with what each refusal carries. -/
def State.defineRefusal (s : State) (key : Nat) (o : DefineOrder) : Option (Reason × List Fld) :=
  if (s.segAt o.segment).isSome then some (.segmentState, Fld.opt 21 (s.loadingFill o.segment))
  else if !keyPasses key o.key then some (.keyMismatch, [])
  else if o.firstPage + pagesFor o.length > Config.contentPages then some (.outOfRange, [.num 15 (pagesFor o.length)])
  else match s.overlap o.firstPage (pagesFor o.length) with
    | some n => some (.pageOverlap, [.num 10 n])
    | none => none

/-- R73: the new record. -/
def DefineOrder.record (o : DefineOrder) : Segment :=
  { state := .loading, firstPage := o.firstPage, length := o.length, key := o.key, fill := 0, check := 0, pins := 0 }

/-- R73, R84: a waiting freed claim is withdrawn, and the reply says so with its run-second count, ahead of the pages, as R73
lists them. -/
def actDefine (h : OrderHead) (o : DefineOrder) (s : State) : State × Answer :=
  match s.defineRefusal h.key o with
  | some (r, body) => (s, .refuse r (s.segBase o.segment ++ body))
  | none =>
    let t := s.setSeg o.segment (.used o.record)
    (t, .ok (t.segBase o.segment ++ Fld.opt 32 ((s.freedAt o.segment).map FreedClaim.runSecond)
      ++ [.num 18 o.firstPage, .num 15 (pagesFor o.length), .num 18 (o.firstPage + pagesFor o.length - 1)]))

/-- SEGMENT_DEFINE (R73). -/
def execSegmentDefine (s : State) : Host.Outcome State Fault Refusal := .next (s.order 0x40 parseDefine baseSegment actDefine)

/-! ## SEGMENT FINISH, SEGMENT RETIRE, SEGMENT READ -/

/-- R77: fill mark, length and load check; an EMPTY record has none (log 17). -/
def State.finishFields (s : State) (n : Nat) : List Fld :=
  let g := s.segAt n
  Fld.opt 21 (g.map Segment.fill) ++ Fld.opt 21 (g.map Segment.length) ++ Fld.opt 32 (g.map fun g => g.check.toNat)

/-- R71, R77: what every reply to SEGMENT FINISH carries. -/
def baseFinish (c : List Byte) (s : State) : List Fld := baseSegment c s ++ s.finishFields (firstField c 10)

/-- R77: the own conditions, in order. -/
def State.finishRefusal (s : State) (key n : Nat) : Option Reason :=
  match s.segAt n with
  | none => some .segmentState
  | some g =>
    if g.state ≠ .loading then some .segmentState
    else if !keyPasses key g.key then some .keyMismatch
    else if g.fill < g.length then some .segmentState
    else none

/-- A segment's state, written. -/
def State.setSegState (n : Nat) (x : SegState) (s : State) : State :=
  match s.segAt n with
  | some g => s.setSeg n (.used { g with state := x })
  | none => s

/-- R77. -/
def actFinish (h : OrderHead) (n : Nat) (s : State) : State × Answer :=
  match s.finishRefusal h.key n with
  | some r => (s, .refuse r (s.segBase n ++ s.finishFields n))
  | none => (s.setSegState n .ready, .ok ((s.setSegState n .ready).segBase n ++ s.finishFields n))

/-- SEGMENT_FINISH (R77). -/
def execSegmentFinish (s : State) : Host.Outcome State Fault Refusal :=
  .next (s.order 0x41 parseSegment baseFinish actFinish)

/-- R78: the own conditions, in order. -/
def State.retireRefusal (s : State) (key n : Nat) : Option Reason :=
  match s.segAt n with
  | none => some .segmentState
  | some g =>
    if g.state = .retiring then some .segmentState
    else if !keyPasses key g.key then some .keyMismatch
    else none

/-- The pin count of a record. -/
def State.pinsOf (s : State) (n : Nat) : Nat :=
  match s.segAt n with
  | some g => g.pins
  | none => 0

/-- R78: EMPTY at once without pins, RETIRING with them. -/
def State.retireSeg (n : Nat) (s : State) : State :=
  match s.segAt n with
  | some g => if g.state = .ready ∧ 0 < g.pins then s.setSegState n .retiring else s.emptySeg n
  | none => s

/-- R78. -/
def actRetire (h : OrderHead) (n : Nat) (s : State) : State × Answer :=
  match s.retireRefusal h.key n with
  | some r => (s, .refuse r (s.segBase n))
  | none => (s.retireSeg n, .ok ((s.retireSeg n).segBase n ++ [.num 6 (s.pinsOf n)]))

/-- SEGMENT_RETIRE (R78). -/
def execSegmentRetire (s : State) : Host.Outcome State Fault Refusal :=
  .next (s.order 0x42 parseSegment baseSegment actRetire)

/-- R79: what follows number and state for a record that is not EMPTY. The state in front of them says that they are there, so
none has a presence bit (log 17). -/
def Segment.readFields (g : Segment) : List Fld :=
  [.num 18 g.firstPage, .num 21 g.length, .num 15 g.pages, .num 4 g.key, .num 21 g.fill, .num 32 g.check.toNat,
   .num 6 g.pins]

/-- R79. For an EMPTY record one bit says whether a freed claim waits, and is the presence bit of its count (log 17). -/
def actSegmentRead (h : OrderHead) (n : Nat) (s : State) : State × Answer :=
  match s.segAt n with
  | none => (s, .ok (s.segBase n ++ Fld.opt 32 ((s.freedAt n).map FreedClaim.runSecond)))
  | some g =>
    if keyPasses h.key g.key then (s, .ok (s.segBase n ++ g.readFields)) else (s, .refuse .keyMismatch (s.segBase n))

/-- SEGMENT_READ (R79). -/
def execSegmentRead (s : State) : Host.Outcome State Fault Refusal :=
  .next (s.order 0x43 parseSegment baseSegment actSegmentRead)

/-! ## LOAD (R74, R75, R76) -/

/-- R74: the first test that fails. -/
def State.loadRefusal (s : State) (c : List Byte) : Option Reason :=
  if !payloadOk c then some .badCell
  else if cellSegment c > 1023 ∨ cellIndex c > 1048575 ∨ cellKey c > 15 then some .badField
  else match s.segAt (cellSegment c) with
    | none => some .segmentState
    | some g =>
      if g.state ≠ .loading then some .segmentState
      else if !keyPasses (cellKey c) g.key then some .keyMismatch
      else if cellIndex c ≥ g.length then some .outOfRange
      else if cellIndex c > g.fill then some .gap
      else none

/-- R74: segment number, cell index, and the state and fill mark of a named record in range. -/
def State.loadFields (s : State) (c : List Byte) : List Fld :=
  [.num 10 (cellSegment c), .num 20 (cellIndex c)]
    ++ Fld.opt 2 (if cellSegment c ≤ 1023 then some (s.segCode (cellSegment c)) else none)
    ++ Fld.opt 21 ((s.segAt (cellSegment c)).map Segment.fill)

/-- 10.2, R74: the one reply of a refused LOAD cell, its order code, tag and desk 0 as the table of 10.2 gives. With BAD_CELL R199
fills bytes 0 to 3, which are these three fields, from the damaged payload instead; that they are 0 then too is the model's choice
(log 28). -/
def loadReply (s : State) (c : List Byte) (r : Reason) : Reply :=
  { code := 0, tag := 0, desk := 0, unchecked := decide (r = .badCell), outcome := .accepted, reason := r, placed := s.now,
    body := s.loadFields c }

/-- The bytes of a payload, written at consecutive addresses. -/
def State.writeContent (a : Nat) (bytes : List Byte) (s : State) : State :=
  { s with sg := { s.sg with content := Memory.writeBytes s.sg.content a bytes } }

/-- R75: the payload is written at the fill mark, the load check updated and the fill mark raised; a cell below the fill
mark is a duplicate and ignored. -/
def State.writeLoad (c : List Byte) (s : State) : State :=
  match s.segAt (cellSegment c) with
  | none => s
  | some g =>
    if cellIndex c = g.fill then
      (s.setSeg (cellSegment c)
        (.used { g with fill := g.fill + 1, check := g.check + payloadSum (cellPayload c) })).writeContent
          (cellAddress g.firstPage (cellIndex c)) (cellPayload c)
    else s

/-- R170, R177: a LOAD cell that needs no reply is finished; its reservation is given back. -/
def State.giveBack (s : State) : State :=
  { s with fri := { s.fri with reservations := s.fri.reservations - 1, intake := s.fri.intake.tail } }

/-- R74, R75: the LOAD cell in progress. -/
def State.loadStep (s : State) : State :=
  match s.inProgress.filter fun c => decide (cellKind c = kindLoad) with
  | none => s
  | some c =>
    match s.loadRefusal c with
    | some r => s.placeReply (loadReply s c r)
    | none => (s.writeLoad c).giveBack

/-- LOAD (R75). -/
def execLoad (s : State) : Host.Outcome State Fault Refusal := .next s.loadStep

end Sys2Proof.Machine
end

