-- ==== Sys2Proof/Machine/Reels.lean ====
section
/-! DEFINITION. The reel-table orders (5.1) and the orders of the playout contexts (5.2, 5.5). -/
namespace Sys2Proof.Machine

/-! ## REEL WRITE, REEL CLEAR, REEL READ -/

/-- R90: the fields of REEL WRITE. -/
structure ReelOrder where
  reel : Nat
  first : Nat
  newLength : Nat
  words : List ReelWord
  deriving DecidableEq, Repr

/-- 10.2, R90: the reel word of the 9-byte group at payload byte `b`, when it is in range. -/
def wordAt (p : List Byte) (b : Nat) : Option ReelWord :=
  let num (i n : Nat) : Nat := natOfBytes ((p.drop (b + i)).take n)
  let flags := p.getD (b + 7) 0
  let gate := flags.getLsbD 4
  if num 0 2 ≤ 1023 ∧ num 2 3 ≤ 1048575 ∧ 1 ≤ num 5 2 ∧ (gate = true → num 8 1 ≤ 95) then
    some { segment := num 0 2, offset := num 2 3, count := num 5 2, cut := flags.getLsbD 0, loop := flags.getLsbD 1,
           mark := flags.getLsbD 2, skip := flags.getLsbD 3, gate := if gate then some (num 8 1) else none }
  else none

/-- 10.2, R199: `k` reel words from payload byte `b`. -/
def wordsAt (p : List Byte) : Nat → Nat → Option (List ReelWord)
  | _, 0 => some []
  | b, k + 1 =>
    match wordAt p b, wordsAt p (b + 9) k with
    | some w, some ws => some (w :: ws)
    | _, _ => none

/-- R90: reel 0–31, first index 0–31, word count 0–4, new length 0–32; the words begin at byte 9, the first byte boundary
behind these fields (R199). -/
def parseReelWrite (c : List Byte) : Option ReelOrder :=
  match orderFields c [5, 5, 3, 6] with
  | [reel, first, count, len] =>
    if count ≤ 4 ∧ len ≤ 32 then
      (wordsAt (cellPayload c) 9 count).map fun ws => { reel := reel, first := first, newLength := len, words := ws }
    else none
  | _ => none

/-- R90, condition 3: a hole, or a length past the end. -/
def ReelOrder.badLength (o : ReelOrder) (present : Nat) : Bool :=
  if o.words.length = 0 then decide (o.newLength > present)
  else decide (o.first + o.words.length > 32 ∨ o.newLength < o.first + o.words.length
    ∨ o.newLength > max present (o.first + o.words.length))

/-- R90: the own conditions in order, with what each refusal carries. -/
def ReelOrder.refusal (o : ReelOrder) (r : Reel) : Option (Reason × List Fld) :=
  if r.binding > 0 then some (.reelBound, [.num 4 r.binding])
  else if o.words.length > 0 ∧ o.first > r.words.length then some (.gap, [.num 6 r.words.length])
  else if o.badLength r.words.length then some (.badField, [])
  else none

/-- R90: the words of the reel after the order. -/
def ReelOrder.written (o : ReelOrder) (old : List ReelWord) : List ReelWord :=
  (if o.words.length = 0 then old
   else old.take o.first ++ o.words ++ old.drop (o.first + o.words.length)).take o.newLength

/-- R90. -/
def actReelWrite (_ : OrderHead) (o : ReelOrder) (s : State) : State × Answer :=
  match o.refusal (s.reelAt o.reel) with
  | some (r, body) => (s, .refuse r body)
  | none =>
    (s.setReel o.reel { s.reelAt o.reel with words := o.written (s.reelAt o.reel).words },
     .ok [.num 5 o.reel, .num 6 o.newLength])

/-- REEL_WRITE (R90). -/
def execReelWrite (s : State) : Host.Outcome State Fault Refusal := .next (s.order 0x50 parseReelWrite baseNone actReelWrite)

/-- R91. -/
def actReelClear (_ : OrderHead) (n : Nat) (s : State) : State × Answer :=
  if (s.reelAt n).binding > 0 then (s, .refuse .reelBound [.num 4 (s.reelAt n).binding])
  else (s.setReel n { s.reelAt n with words := [] }, .ok [.num 5 n, .num 6 (s.reelAt n).words.length])

/-- REEL_CLEAR (R91). -/
def execReelClear (s : State) : Host.Outcome State Fault Refusal :=
  .next (s.order 0x51 (parseOne 5 31) baseNone actReelClear)

/-- R92: reel 0–31, first index 0–31. -/
def parseReelRead (c : List Byte) : Option (Nat × Nat) :=
  match orderFields c [5, 5] with
  | [n, i] => some (n, i)
  | _ => none

/-- R92: whether the context of a port binds a reel. -/
def State.bindsReel (s : State) (n : Nat) (p : Port) : Bool := (s.ctx p).run?.any fun r => decide (r.reel = n)

/-- R92: up to four words, in their groups from a byte boundary. -/
def actReelRead (_ : OrderHead) (a : Nat × Nat) (s : State) : State × Answer :=
  let r := s.reelAt a.1
  (s, .ok ([.num 5 a.1, .num 6 r.words.length, .num 4 r.binding, Fld.ports (PortSet.ofPred (s.bindsReel a.1)), .align]
    ++ (((r.words.drop a.2).take 4).map Fld.reelWord).flatten))

/-- REEL_READ (R92). -/
def execReelRead (s : State) : Host.Outcome State Fault Refusal := .next (s.order 0x52 parseReelRead baseNone actReelRead)

/-! ## REEL START -/

/-- R95: the fields of REEL START. -/
structure StartOrder where
  port : Port
  reel : Nat
  key : Nat
  repeats : Nat
  tag : Nat
  deriving DecidableEq, Repr

/-- R95: port 0–11; every value of the other fields' bits is in range. -/
def parseReelStart (c : List Byte) : Option StartOrder :=
  match parsePort c, orderFields c [4, 5, 4, 8, 16] with
  | some p, [_, reel, key, repeats, tag] => some { port := p, reel := reel, key := key, repeats := repeats, tag := tag }
  | _, _ => none

/-- R94: the answer for an unavailable port. -/
def State.unavailable (s : State) (p : Port) : Answer :=
  { outcome := .unavailable, reason := .portState, body := [.num 3 (s.port p).state.code] }
/-- R113: BUSY with the progress. -/
def Run.busy (r : Run) : Answer := { outcome := .busy, reason := .none, body := r.progress }
/-- R95, R110: STATUS with a record. -/
def StatusRecord.delivered (r : StatusRecord) : Answer := { outcome := .status, reason := .none, body := r.fields }

/-- R95: the record of a start that found no word to play, or whose pin was refused. -/
def StartOrder.record (o : StartOrder) (reason : EndReason) (failed : Option Nat) (now : Nat) : StatusRecord :=
  { port := o.port, reel := o.reel, tag := o.tag, reason := reason, lastWord := none, residual := 0, passes := 0,
    failedWord := failed, lostMark := none, endTime := now }

/-- R96: the context at the beginning of a run. -/
def StartOrder.run (o : StartOrder) (i : Nat) (w : ReelWord) (suspended : Bool) : Run :=
  { suspended := suspended, reel := o.reel, key := o.key, repeatLeft := o.repeats, passes := 0, tag := o.tag, curIndex := i,
    cur := w, residual := w.count, slot := .empty, cutDue := true, halting := false, mark := none }

/-- R89: the binding count of a reel rises. -/
def State.raiseBinding (n : Nat) (s : State) : State :=
  s.setReel n { s.reelAt n with binding := (s.reelAt n).binding + 1 }

/-- R153: the live buffer is flushed when an open picture closes. -/
def State.closePicture (p : Port) (s : State) : State := if s.pictureOpen p then s.flushLive p else s

/-- R96: whether a run begins SUSPENDED. -/
def State.startsSuspended (s : State) (p : Port) : Bool :=
  !(decide ((s.port p).settings.mode = .live) && !(s.slot p).takeover)

/-- R96: the run begins, its pin granted. -/
def State.startRun (o : StartOrder) (i : Nat) (w : ReelWord) (s : State) : State :=
  let t := ((s.closePicture o.port).addPin w.segment).raiseBinding o.reel
  ((t.setCtx o.port (.running (o.run i w (s.startsSuspended o.port)))).markWord o.port).prefetch o.port

/-- R95, R96: the start on an available port with an IDLE context. -/
def startIdle (o : StartOrder) (s : State) : State × Answer :=
  let words := (s.reelAt o.reel).words
  if words.length = 0 then (s, .refuse .reelEmpty [])
  else match s.firstEligible 0 words with
    | none => (s, (o.record .allPassed none s.now).delivered)
    | some (i, w) =>
      match s.pinAnswer w.segment o.key w.offset w.count with
      | .notReady => (s, (o.record .segmentNotReady (some i) s.now).delivered)
      | .keyMismatch => (s, (o.record .keyMismatch (some i) s.now).delivered)
      | .granted =>
        let t := s.startRun o i w
        (t, .ok [.num 4 o.port.val, .num 5 o.reel, .num 16 o.tag, .num 5 i, .num 2 (t.ctx o.port).code])

/-- R95. -/
def actReelStart (_ : OrderHead) (o : StartOrder) (s : State) : State × Answer :=
  if !(s.port o.port).state.available then (s, s.unavailable o.port)
  else match s.ctx o.port with
    | .running r => (s, r.busy)
    | .statusPending r => (s.setCtx o.port .idle, r.delivered)
    | .idle => startIdle o s

/-- REEL_START (R95). -/
def execReelStart (s : State) : Host.Outcome State Fault Refusal := .next (s.order 0x53 parseReelStart baseNone actReelStart)

/-! ## REEL HALT, REEL TEST, PORTS TEST -/

/-- R111, R112: halting turns on; with no staged cell of the context the run ends at once. -/
def State.haltRun (p : Port) (r : Run) (s : State) : State :=
  (s.setCtx p (.running { r with halting := true })).haltCheck p

/-- R111, R199 item 4: whether the run has ended, which the reply to the halt of a running context alone says: IDLE and running
contexts are both answered ACCEPTED with reason NONE, so a presence bit stands before it. One bit, 1 for ended, carries it
(log 17). -/
def haltFields (ended : Option Bool) : List Fld := Fld.opt 1 (ended.map fun b => if b then 1 else 0)

/-- R111. -/
def actReelHalt (_ : OrderHead) (p : Port) (s : State) : State × Answer :=
  if !(s.port p).state.available then (s, s.unavailable p)
  else match s.ctx p with
    | .idle => (s, .ok (haltFields none))
    | .statusPending r => (s.setCtx p .idle, r.delivered)
    | .running r =>
      if r.halting then (s, .ok (haltFields (some false)))
      else (s.haltRun p r, .ok (haltFields (some ((s.haltRun p r).ctx p).run?.isNone)))

/-- REEL_HALT (R111). -/
def execReelHalt (s : State) : Host.Outcome State Fault Refusal := .next (s.order 0x54 parsePort baseNone actReelHalt)

/-- R113. -/
def actReelTest (_ : OrderHead) (p : Port) (s : State) : State × Answer :=
  if !(s.port p).state.available then (s, s.unavailable p)
  else match s.ctx p with
    | .idle => (s, .ok [.num 2 Context.idle.code])
    | .statusPending r => (s.setCtx p .idle, r.delivered)
    | .running r => (s, r.busy)

/-- REEL_TEST (R113). -/
def execReelTest (s : State) : Host.Outcome State Fault Refusal := .next (s.order 0x55 parsePort baseNone actReelTest)

/-- R114: the notice slot as a choice of two. -/
def Slot.testFields (x : Slot) : List Fld :=
  match x.shown with
  | none => [.num 1 0]
  | some n => [.num 1 1] ++ Fld.key n.key ++ [.num 1 n.form.code]

/-- R114: port state, mode, context state with halting and reel, notice slot. The context state says whether halting and reel
follow it, without presence bits; halting is 1 for "on" (log 17). -/
def State.portTest (s : State) (p : Port) : List Fld :=
  [.num 3 (s.port p).state.code, .num 2 (s.port p).settings.mode.code, .num 2 (s.ctx p).code]
    ++ (match (s.ctx p).run? with | some r => [Fld.yes r.halting, .num 5 r.reel] | none => [])
    ++ (s.slot p).testFields

/-- R114. -/
def actPortsTest (_ : OrderHead) (_ : Unit) (s : State) : State × Answer :=
  (s, .ok (allPorts.map s.portTest).flatten)

/-- PORTS_TEST (R114). -/
def execPortsTest (s : State) : Host.Outcome State Fault Refusal := .next (s.order 0x56 parseNone baseNone actPortsTest)

end Sys2Proof.Machine
end

