-- ==== Sys2Proof/Machine/Notices.lean ====
section
/-! DEFINITION. The notice orders (6.2, 6.5) and NOTICE_EXPIRY. -/
namespace Sys2Proof.Machine

/-! ## NOTICE POST: fields (R121) -/

/-- R121: the fields of NOTICE POST. -/
structure PostOrder where
  key : DeskTag
  priority : Nat
  body : NoticeBody
  targets : PortSet
  duration : Nat
  binding : Option ShowBinding
  deriving DecidableEq, Repr

/-- R121: the show binding at bit `pos`: a presence bit, show number, effect code, and DELAY's minutes. The outer none
stands for a field out of range. -/
def bindingAt (pay pos : Nat) : Option (Option ShowBinding) :=
  if fieldAt pay pos 1 = 0 then some none
  else
    let n := fieldAt pay (pos + 1) 7
    let m := fieldAt pay (pos + 10) 8
    if n > 95 then none
    else match fieldAt pay (pos + 8) 2 with
      | 0 => some (some { showNo := n, effect := .none })
      | 1 => if 1 ≤ m ∧ m ≤ 240 then some (some { showNo := n, effect := .delay m }) else none
      | 2 => some (some { showNo := n, effect := .cancel })
      | _ => none

/-- R121: the fields of the notice's own form, from bit `pos`: the bit behind them, and the text or the segment with the
order key. They stand where the heading lists them, behind the duration; the form's code says which they are, so they have no
presence bit and the other form takes no bits (log 17). -/
def formAt (pay pos form key : Nat) : Option (Nat × NoticeBody) :=
  if form = 0 then
    let len := fieldAt pay pos 6
    let text := textAt pay (pos + 6) len
    if len ≤ 48 ∧ text.all charOk then some (pos + 6 + 8 * len, .text text) else none
  else some (pos + 10, .takeover (fieldAt pay pos 10) key)

/-- R121: key, priority, form, targets, duration, the form's own fields, the binding. -/
def parsePost (c : List Byte) : Option PostOrder :=
  let pay := payloadNat c
  match orderFields c [5, 16, 2, 1, 12, 12] with
  | [d, t, priority, form, targets, duration] =>
    if PortSet.ofBits targets = 0 ∨ ¬ (duration = 0 ∨ (10 ≤ duration ∧ duration ≤ 3600)) then none
    else match formAt pay (ownBits + 48) form (orderHead c).key with
      | none => none
      | some (pos, body) =>
        (bindingAt pay pos).map fun b =>
          { key := { desk := d, tag := t }, priority := priority, body := body, targets := PortSet.ofBits targets,
            duration := duration, binding := b }
  | _ => none

/-! ## NOTICE POST: conditions (R122) -/

/-- R122, conditions 3 and 4. -/
def State.effectRefusal (s : State) (b : Option ShowBinding) : Option Reason :=
  match b with
  | none => none
  | some b =>
    match b.effect with
    | .none => none
    | .delay m => s.delayRefusal b.showNo m
    | .cancel => s.cancelRefusal b.showNo

/-- R122, condition 5: the answer to a TAKEOVER's pin request; a TEXT asks for none. -/
def State.postPin (s : State) : NoticeBody → PinAnswer
  | .text _ => .granted
  | .takeover seg key => s.pinAnswer seg key 0 (s.segLength seg)

/-- R122, condition 5: the segment's state, which the refusal carries. -/
def State.postSegment (s : State) : NoticeBody → List Fld
  | .text _ => []
  | .takeover seg _ => [.num 2 (s.segCode seg)]

/-- R122: the number of CLOSING records. -/
def State.closingCount (s : State) : Nat := (s.nq.notices.filter fun n => !n.state.isOpen).length

/-- R122: the own conditions in order, with what each refusal carries. -/
def State.postRefusal (s : State) (o : PostOrder) : Option (Reason × List Fld) :=
  match s.noticeAt o.key with
  | some n => some (.noticeExists, [.num 2 n.state.code])
  | none =>
    if s.nq.notices.length ≥ Config.noticePlaces then some (.tableFull, [.num 5 s.closingCount])
    else match s.effectRefusal o.binding with
      | some r => some (r, [])
      | none =>
        match s.postPin o.body with
        | .granted => none
        | .notReady => some (.segmentState, s.postSegment o.body)
        | .keyMismatch => some (.keyMismatch, s.postSegment o.body)

/-! ## NOTICE POST: effects (R123, R124) -/

/-- R123: the new record. -/
def PostOrder.record (o : PostOrder) (now : Nat) : Notice :=
  { key := o.key, priority := o.priority, body := o.body, targets := o.targets, duration := o.duration,
    deadline := if o.duration = 0 then none else some (now + o.duration), binding := o.binding, state := .waiting,
    claimed := false, shownOn := 0, firstShown := none }

/-- R118: after every record of equal or higher priority, before every record of lower priority. -/
def insertNotice (n : Notice) : List Notice → List Notice
  | [] => [n]
  | m :: ms => if m.priority < n.priority then n :: m :: ms else m :: insertNotice n ms

/-- A record is inserted in the notice table (R118). -/
def State.joinNotice (n : Notice) (s : State) : State := { s with nq := { s.nq with notices := insertNotice n s.nq.notices } }

/-- R123, step 1. -/
def State.holdPin (b : NoticeBody) (s : State) : State :=
  match b with
  | .text _ => s
  | .takeover seg _ => s.addPin seg

/-- R124: the show effect, applied once. -/
def State.showEffect (b : Option ShowBinding) (s : State) : State :=
  match b with
  | none => s
  | some b =>
    match b.effect with
    | .none => s
    | .delay m => s.delayShow b.showNo m
    | .cancel => s.cancelShow b.showNo

/-- R131: the targeted ports a post wakes. -/
def State.toWake (s : State) (o : PostOrder) : PortSet :=
  PortSet.ofPred fun p => PortSet.has o.targets p && (s.port p).wakes o.priority

/-- R123: the whole of an accepted post. R131 gives no order among the ports that one post wakes: they are woken lowest first,
so that with free places their PANEL_WOKEN reports stand in that order (log 35). -/
def State.postNotice (o : PostOrder) (s : State) : State :=
  let t := ((s.holdPin o.body).showEffect o.binding).joinNotice (o.record s.now)
  (t.forPorts (PortSet.members (s.toWake o)) (State.wake o.key o.priority)).selectPorts o.targets

/-- R124: whether an effect changes its show. -/
def ShowEffect.acts : ShowEffect → Bool
  | .none => false
  | .delay _ => true
  | .cancel => true

/-- R123: the show a post's effect has changed, as it stands. -/
def State.effectShow (s : State) (b : Option ShowBinding) : Option (Nat × Show) :=
  match b.filter fun b => b.effect.acts with
  | some b => (s.showAt b.showNo).map fun x => (b.showNo, x)
  | none => none

/-- R123: what the reply says of the show; each a field that may be absent (R199 item 4, log 17). -/
def State.effectFields (s : State) (b : Option ShowBinding) : List Fld :=
  let e := s.effectShow b
  let c := if b.any (fun b => decide (b.effect = .cancel)) then e else none
  Fld.opt 7 (e.map Prod.fst) ++ Fld.opt 3 (e.map fun e => e.2.phase.code) ++ Fld.opt 11 (e.map fun e => e.2.effStart)
    ++ Fld.opt 10 (c.map fun e => e.2.sold) ++ Fld.opt 10 (c.map fun e => e.2.held) ++ Fld.opt 10 (c.map fun e => e.2.free)

/-- R123: the state code of the notice of a key. -/
def State.noticeCode (s : State) (k : DeskTag) : Nat :=
  match s.noticeAt k with
  | some n => n.state.code
  | none => 0

/-- R122, R123. -/
def actNoticePost (_ : OrderHead) (o : PostOrder) (s : State) : State × Answer :=
  match s.postRefusal o with
  | some (r, body) => (s, .refuse r body)
  | none =>
    let t := s.postNotice o
    (t, .ok (Fld.key o.key ++ [.num 2 (t.noticeCode o.key), Fld.ports (t.showingPorts o.key), Fld.ports (s.toWake o)]
      ++ Fld.opt 32 (o.record s.now).deadline ++ t.effectFields o.binding))

/-- NOTICE_POST (R123). -/
def execNoticePost (s : State) : Host.Outcome State Fault Refusal := .next (s.order 0x60 parsePost baseNone actNoticePost)

/-! ## Closing (R133) and NOTICE WITHDRAW (R135) -/

/-- R133, R135: the pin of a TAKEOVER is released. -/
def State.releaseNotice (n : Notice) (s : State) : State :=
  match n.body with
  | .text _ => s
  | .takeover seg _ => s.releasePin seg

/-- R133: one record closes at its deadline: CLOSING, out of its slots, its pin released, and last its claim. -/
def State.closeNotice (time : Nat) (n : Notice) (s : State) : State :=
  let t := s.mapNotice n.key fun m => { m with state := .closing time }
  ((t.selectPorts (s.showingPorts n.key)).releaseNotice n).withClaim fun u =>
    u.mapNotice n.key fun m => { m with claimed := true }

/-- R133: the records a run-second event closes, front first. -/
def State.dueNotices (s : State) (count : Nat) : List Notice :=
  s.nq.notices.filter fun n => n.state.isOpen && n.deadline.any fun d => decide (d ≤ count)

/-- R133: the Notice Queue takes its oldest run-second event. -/
def State.noticeExpiry (s : State) : State :=
  match s.paths.noticeSeconds with
  | [] => s
  | count :: rest =>
    let t : State := { s with paths := { s.paths with noticeSeconds := rest } }
    (t.dueNotices count).foldl (fun u n => u.closeNotice count n) t

/-- NOTICE_EXPIRY (R133). -/
def execNoticeExpiry (s : State) : Host.Outcome State Fault Refusal := .next s.noticeExpiry

/-- R135: an open record is removed, its pin released, every targeted port and every slot it stood in selected again. -/
def State.withdraw (n : Notice) (s : State) : State :=
  ((s.releaseNotice n).dropNotice n.key).selectPorts (n.targets ||| s.showingPorts n.key)

/-- R135: notice key, cause, shown-on set, first-shown time, the close time of a CLOSING record, the ports that showed an
open one; the last three may be absent (R199 item 4, log 17). -/
def withdrawFields (n : Notice) (cause : Nat) (showing : Option PortSet) : List Fld :=
  Fld.key n.key ++ [.num 1 cause, Fld.ports n.shownOn] ++ Fld.opt 32 n.firstShown ++ Fld.opt 32 n.state.closeTime
    ++ (match showing with | some ps => [.num 1 1, Fld.ports ps] | none => [.num 1 0])

/-- R135: cause EXPIRED is 0 and WITHDRAWN 1. -/
def actNoticeWithdraw (_ : OrderHead) (k : DeskTag) (s : State) : State × Answer :=
  match s.noticeAt k with
  | none => (s, .refuse .noSuchNotice [])
  | some n =>
    match n.state.closeTime with
    | some _ => (s.dropNotice k, .ok (withdrawFields n 0 none))
    | none => (s.withdraw n, .ok (withdrawFields n 1 (some (s.showingPorts k))))

/-- NOTICE_WITHDRAW (R135). -/
def execNoticeWithdraw (s : State) : Host.Outcome State Fault Refusal :=
  .next (s.order 0x61 parseKey baseNone actNoticeWithdraw)

/-! ## NOTICE READ (R136) -/

/-- R119: the fields of a record, in the order of its table. The form's own fields, the text or the segment and key, stand bare
behind the targets, decided by the form code before them: no presence bit, and none for the other form (log 17). -/
def Notice.fields (n : Notice) : List Fld :=
  Fld.key n.key ++ [.num 2 n.priority, .num 1 n.form.code, Fld.ports n.targets]
    ++ (match n.body with
        | .text cs => Fld.text 6 cs
        | .takeover seg key => [.num 10 seg, .num 4 key])
    ++ [.num 12 n.duration] ++ Fld.opt 32 n.deadline ++ Fld.binding n.binding
    ++ [.num 2 n.state.code, Fld.ports n.shownOn] ++ Fld.opt 32 n.firstShown ++ Fld.opt 32 n.state.closeTime

/-- R136: the place in table order, 1 to 24. -/
def State.noticePlace (s : State) (k : DeskTag) : Nat := s.nq.notices.findIdx (fun n => n.key = k) + 1

/-- R136: the seconds left of an open record with a deadline; 0 behind the deadline (log 31). -/
def Notice.secondsLeft (n : Notice) (now : Nat) : Option Nat :=
  if n.state.isOpen then n.deadline.map fun d => d - now else none

/-- R136. -/
def actNoticeRead (_ : OrderHead) (k : DeskTag) (s : State) : State × Answer :=
  match s.noticeAt k with
  | none => (s, .refuse .noSuchNotice [])
  | some n =>
    (s, .ok (n.fields ++ [.num 5 (s.noticePlace k), Fld.ports (s.showingPorts k)] ++ Fld.opt 12 (n.secondsLeft s.now)))

/-- NOTICE_READ (R136). -/
def execNoticeRead (s : State) : Host.Outcome State Fault Refusal := .next (s.order 0x62 parseKey baseNone actNoticeRead)

end Sys2Proof.Machine
end

