-- ==== Sys2Proof/Machine/PortOrders.lean ====
section
/-! DEFINITION. The port orders (7.9). -/
namespace Sys2Proof.Machine

/-! ## PORT ENABLE, PORT DISABLE, PORT RESET -/

/-- R160. -/
def actPortEnable (_ : OrderHead) (p : Port) (s : State) : State × Answer :=
  if (s.port p).state ≠ .off then (s, .refuse .portState (s.portBase p))
  else (s.enterLinking p, .ok ((s.enterLinking p).portBase p))

/-- PORT_ENABLE (R160). -/
def execPortEnable (s : State) : Host.Outcome State Fault Refusal := .next (s.order 0x70 parsePort basePort actPortEnable)

/-- R161, R162: the states in which PORT DISABLE and PORT RESET are refused. -/
def PortState.outOfService : PortState → Bool
  | .off | .draining => true
  | .linking | .ready | .held | .stalled => false

/-- R161: the port record at the entry to DRAINING. A hold timer runs on, and a boundary that finds HOLD asserted starts it
(R149). -/
def PortRec.drained (r : PortRec) : PortRec :=
  { r with state := .draining, linkTimer := false, retryTimer := false, keepAlive := .stopped, restoreDue := none,
           holdTimer := r.holdTimer || (r.sendingPlace.isNone && r.hold) }

/-- R161: the run ends, the live buffer is flushed, the port drains, and is OFF at once with an empty staging. -/
def State.disablePort (p : Port) (s : State) : State :=
  let t := (s.portEndsRun p .portReset).flushLive p
  ((t.setPort p (t.port p).drained).selectPort p).drainDone p

/-- R161. -/
def actPortDisable (_ : OrderHead) (p : Port) (s : State) : State × Answer :=
  if (s.port p).state.outOfService then (s, .refuse .portState (s.portBase p))
  else (s.disablePort p, .ok ((s.disablePort p).portBase p))

/-- PORT_DISABLE (R161). -/
def execPortDisable (s : State) : Host.Outcome State Fault Refusal := .next (s.order 0x71 parsePort basePort actPortDisable)

/-- R162: the port is flushed, its run ended, and links again. -/
def State.resetPort (p : Port) (s : State) : State :=
  let t := ((s.flushStaging p).flushLive p).portEndsRun p .portReset
  (t.setPort p { t.port p with holdTimer := false, retryTimer := false, keepAlive := .stopped }).enterLinking p

/-- R162. -/
def actPortReset (_ : OrderHead) (p : Port) (s : State) : State × Answer :=
  if (s.port p).state.outOfService then (s, .refuse .portState (s.portBase p))
  else (s.resetPort p, .ok ((s.resetPort p).portBase p))

/-- PORT_RESET (R162). -/
def execPortReset (s : State) : Host.Outcome State Fault Refusal := .next (s.order 0x72 parsePort basePort actPortReset)

/-! ## PORT SET -/

/-- R163: the values of the settings the mask names; the mode stands as the code the order carries until it is checked. -/
structure PortEdit where
  port : Port
  mode : Option PanelMode
  gap : Option Nat
  spacing : Option Nat
  holdTimeout : Option Nat
  keepAlive : Option Nat
  slipCheck : Option Bool
  wakeLevel : Option Nat
  deriving DecidableEq, Repr

/-- R163: the ranges that the bits of the fields do not already give (gap 8 bits, timeouts 3, wake level 2), and at least one
setting named. That the bit 1 is "on" of slip check is the model's choice (log 17). -/
def parsePortSet (c : List Byte) : Option PortEdit :=
  let pay := payloadNat c
  match parsePort c, maskedAt pay (ownBits + 11) ((maskAt pay (ownBits + 4) 7).zip [2, 8, 4, 3, 3, 1, 2]) with
  | some p, [mode, gap, spacing, hold, keep, slip, wake] =>
    if fieldAt pay (ownBits + 4) 7 = 0 ∨ ¬ optIn 0 2 mode ∨ ¬ optIn 0 8 spacing then none
    else some { port := p, mode := mode.bind PanelMode.ofCode, gap := gap, spacing := spacing, holdTimeout := hold,
                keepAlive := keep, slipCheck := slip.map fun v => decide (v = 1), wakeLevel := wake }
  | _, _ => none

/-- R164: the settings apart from the mode, which R151 changes. -/
def PortEdit.apply (e : PortEdit) (x : PortSettings) : PortSettings :=
  { x with gap := e.gap.getD x.gap, spacing := e.spacing.getD x.spacing, holdTimeout := e.holdTimeout.getD x.holdTimeout,
           keepAlive := e.keepAlive.getD x.keepAlive, slipCheck := e.slipCheck.getD x.slipCheck,
           wakeLevel := e.wakeLevel.getD x.wakeLevel }

/-- R163: the notice that gives WAKE_NOTICE, tested with the wake level the order leaves. -/
def State.darkRefusal (s : State) (e : PortEdit) : Option Notice :=
  if e.mode = some .dark ∧ (s.port e.port).settings.mode ≠ .dark then
    s.wakeNotice e.port (e.wakeLevel.getD (s.port e.port).settings.wakeLevel)
  else none

/-- R157: the keep-alive timer against a new interval, measured from the last take `sinceTakeMs` ago. -/
def KeepAlive.remeasure (interval sinceTakeMs : Nat) : KeepAlive → KeepAlive
  | .stopped => .stopped
  | .running => if Config.portIntervalMs interval ≤ sinceTakeMs then .ranOut else .running
  | .ranOut => if Config.portIntervalMs interval ≤ sinceTakeMs then .ranOut else .running

/-- R164: settings and keep-alive timer written. -/
def State.writeSettings (e : PortEdit) (sinceTakeMs : Nat) (s : State) : State :=
  let r := s.port e.port
  s.setPort e.port
    { r with settings := e.apply r.settings
             keepAlive := match e.keepAlive with
               | some n => r.keepAlive.remeasure n sinceTakeMs
               | none => r.keepAlive }

/-- R144, R149: a changed hold timeout against a present wait of `waitedMs`. -/
def State.remeasureHold (p : Port) (holdTimeout : Option Nat) (waitedMs : Nat) (s : State) : State :=
  match holdTimeout with
  | none => s
  | some n =>
    if (s.port p).holdTimer ∧ Config.portIntervalMs n ≤ waitedMs then
      match (s.port p).state with
      | .held => s.stall p .holdTimeout
      | .draining => s.flushDraining p
      | .off | .linking | .ready | .stalled => s
    else s

/-- R164, R151: the named mode, if any. -/
def State.nameMode (p : Port) (mode : Option PanelMode) (s : State) : State :=
  match mode with
  | some m => s.modeChange p m
  | none => s

/-- R164: an accepted PORT SET. R164 gives no order among the effects of settings named together: the mode changes first, and a
shortened hold timeout acts on the port as the mode change leaves it (log 36). -/
def State.setSettings (e : PortEdit) (waitedMs sinceTakeMs : Nat) (s : State) : State :=
  ((s.writeSettings e sinceTakeMs).nameMode e.port e.mode).remeasureHold e.port e.holdTimeout waitedMs

/-- The seven settings, in R163's order; slip check is 1 for "on", the model's choice (log 17). -/
def PortSettings.fields (x : PortSettings) : List Fld :=
  [.num 2 x.mode.code, .num 8 x.gap, .num 4 x.spacing, .num 3 x.holdTimeout, .num 3 x.keepAlive, Fld.yes x.slipCheck,
   .num 2 x.wakeLevel]

/-- R163, R164. -/
def actPortSet (waitedMs sinceTakeMs : Nat) (_ : OrderHead) (e : PortEdit) (s : State) : State × Answer :=
  match s.darkRefusal e with
  | some n => (s, .refuse .wakeNotice (s.portBase e.port ++ Fld.key n.key ++ [.num 2 n.priority]))
  | none =>
    let t := s.setSettings e waitedMs sinceTakeMs
    (t, .ok (t.portBase e.port ++ (t.port e.port).settings.fields))

/-- PORT_SET (R164). -/
def execPortSet (waitedMs sinceTakeMs : Nat) (s : State) : Host.Outcome State Fault Refusal :=
  .next (s.order 0x73 parsePortSet basePort (actPortSet waitedMs sinceTakeMs))

end Sys2Proof.Machine
end

