-- ==== Sys2Proof/Machine/PortEvents.lean ====
section
/-! DEFINITION. What happens at a port without an order: the arbiter (7.7), the line (7.2), HOLD (7.3) and the timers
(7.4). -/
namespace Sys2Proof.Machine

/-! ## The stream source (R156) -/

/-- R156: the stream source of a port, when it has a cell to give. -/
inductive Source where
  | takeover (segment : Nat)
  | context (run : Run)
  | live (oldest : List Byte) (rest : List (List Byte))
  deriving DecidableEq, Repr

/-- R97, R156: the run that may give a cell. -/
def Context.serving (c : Context) : Option Run := c.run?.filter fun r => !r.suspended && !r.halting

/-- R156, first case. -/
def State.takeoverSource (s : State) (p : Port) : Option Source :=
  if (s.port p).settings.mode ≠ .dark ∧ (s.slot p).cutOwed = false then (s.takeoverSegment p).map .takeover else none

/-- R156, second and third case. -/
def State.pictureSource (s : State) (p : Port) : Option Source :=
  if (s.port p).settings.mode ≠ .live then none
  else match (s.ctx p).serving with
    | some r => some (.context r)
    | none =>
      match s.ctx p, (s.port p).live with
      | .idle, c :: rest => some (.live c rest)
      | _, _ => none

/-- R156. -/
def State.streamSource (s : State) (p : Port) : Option Source :=
  if (s.slot p).takeover then s.takeoverSource p else s.pictureSource p

/-- R97, R98, R102: what follows a picture of the context: the prefetch, and the word's end at residual 0. -/
def State.afterPicture (p : Port) (s : State) : State :=
  let t := s.prefetch p
  match (t.ctx p).run? with
  | some r => if r.residual = 0 then t.wordEnd p else t
  | none => t

/-- R97: the index of the next picture of the current word. -/
def Run.cellIndex (r : Run) : Nat := r.cur.offset + (r.cur.count - r.residual)

/-- R97: one cell of the context. -/
def State.contextTake (p : Port) (r : Run) (s : State) : PanelCell × State :=
  if r.cutDue then (.cut, s.setCtx p (.running { r with cutDue := false }))
  else (.picture (s.readCell r.cur.segment r.cellIndex),
        (s.setCtx p (.running { r with residual := r.residual - 1 })).afterPicture p)

/-- R156: one cell of the live buffer, behind the CUT of a live gap. -/
def State.liveTake (p : Port) (oldest : List Byte) (rest : List (List Byte)) (s : State) : PanelCell × State :=
  if (s.port p).liveGap then (.cut, s.setPort p { s.port p with liveGap := false })
  else (.picture oldest, s.setPort p { s.port p with live := rest })

/-- R156: one stream cell, and the state without it. -/
def State.streamTake (p : Port) (x : Source) (s : State) : PanelCell × State :=
  match x with
  | .takeover seg => ((s.takeoverCell p seg).1, s.setSlot p (s.takeoverCell p seg).2)
  | .context r => s.contextTake p r
  | .live c rest => s.liveTake p c rest

/-- R141: the source note of a stream cell, CONTEXT or absent. -/
def Source.isContext : Source → Bool
  | .context _ => true
  | .takeover _ => false
  | .live _ _ => false

/-! ## The arbiter (R154, R155) -/

/-- R154, R200: a taken cell is built and goes into the next place, and the keep-alive timer starts again. -/
def State.stage (p : Port) (c : PanelCell) (fromContext : Bool) (s : State) : State :=
  s.setPort p { s.port p with nextPlace := some (s.build p c fromContext), keepAlive := .running }

/-- The spacing counter, written (R155). -/
def State.setSpacing (p : Port) (n : Nat) (s : State) : State := s.setPort p { s.port p with spacing := n }

/-- R155: the row the arbiter takes a strip for: a pending row, when the stream has no cell or the spacing is reached. -/
def State.stripDue (s : State) (p : Port) : Option Nat :=
  if (s.streamSource p).isNone ∨ (s.port p).settings.spacing ≤ (s.port p).spacing then (s.board p).pendingRow else none

/-- R58, R155: a strip take. -/
def State.takeStrip (p : Port) (i : Nat) (s : State) : State :=
  ((s.clearRow p i).setSpacing p 0).stage p (s.stripCell p i) false

/-- R155, R156: a stream take. -/
def State.takeStream (p : Port) (x : Source) (s : State) : State :=
  ((s.streamTake p x).2.setSpacing p (min 8 ((s.port p).spacing + 1))).stage p (s.streamTake p x).1 x.isContext

/-- R157: a KEEPALIVE, when the timer has run out. -/
def State.takeKeepAlive (p : Port) (s : State) : State :=
  if (s.port p).keepAlive = .ranOut then s.stage p .keepalive false else s

/-- R154, sources 3 to 5, in LIVE and QUIET. -/
def State.takePanel (p : Port) (s : State) : State :=
  match s.stripDue p with
  | some i => s.takeStrip p i
  | none =>
    match s.streamSource p with
    | some x => s.takeStream p x
    | none => s.takeKeepAlive p

/-- R154, sources 2 to 5: none but the KEEPALIVE in DARK (R150). -/
def State.takeLit (p : Port) (s : State) : State :=
  if (s.port p).settings.mode = .dark then s.takeKeepAlive p
  else match s.noticeCell p with
    | some (c, x) => (s.setSlot p x).stage p c false
    | none => s.takePanel p

/-- R154, R152: with the port READY and its next place empty, one cell of the first source that has one. -/
def State.arbiterTake (p : Port) (s : State) : State :=
  if (s.port p).state ≠ .ready ∨ (s.port p).nextPlace ≠ none then s
  else if (s.port p).darkOwed then (s.setDarkOwed p false).stage p .dark false
  else s.takeLit p

/-- ARBITER_TAKE (R154). -/
def execArbiterTake (p : Port) (s : State) : Host.Outcome State Fault Refusal := .next (s.arbiterTake p)

/-- R157: the keep-alive timer runs out, in READY or HELD, once its interval has passed. -/
def State.keepAliveTimeout (p : Port) (elapsedMs : Nat) (s : State) : State :=
  if ((s.port p).state = .ready ∨ (s.port p).state = .held) ∧ (s.port p).keepAlive = .running
      ∧ Config.portIntervalMs (s.port p).settings.keepAlive ≤ elapsedMs then
    s.setPort p { s.port p with keepAlive := .ranOut }
  else s

/-- KEEPALIVE_TIMEOUT (R157). -/
def execKeepaliveTimeout (p : Port) (elapsedMs : Nat) (s : State) : Host.Outcome State Fault Refusal :=
  .next (s.keepAliveTimeout p elapsedMs)

/-! ## The line (R141, R145) -/

/-- R141: whether the cell in the next place may start. -/
def PortRec.mayStart (r : PortRec) (sinceStartUs : Nat) : Bool :=
  r.sendingPlace.isNone && (!r.started || decide (r.settings.gap ≤ sinceStartUs))
    && (match r.state with
        | .ready => !r.hold && !r.boundaryHold
        | .linking => r.nextPlace.any Staged.isLink
        | .draining => !r.holdTimer
        | .off | .held | .stalled => false)

/-- R145: the link count when the boundary behind a LINK cell ends. -/
def PortRec.linkCountAfter (r : PortRec) : Nat :=
  if r.hold || r.boundaryHold then 0 else if r.linkSent then r.linkCount + 1 else r.linkCount

/-- R141, R142: the cell moves to the sending place, and a new body begins. -/
def PortRec.start (r : PortRec) : PortRec :=
  { r with sendingPlace := r.nextPlace, nextPlace := none, started := true, boundaryHold := false,
           slipArmed := r.settings.slipCheck }

/-- R145, R146: a LINK cell starts; the boundary before it is counted, and the fourth released one makes the port READY
(log 15). Otherwise the next LINK cell is staged. -/
def State.startLink (p : Port) (s : State) : State :=
  let n := (s.port p).linkCountAfter
  let t := s.setPort p { (s.port p).start with linkCount := n }
  if n ≥ Config.linkTarget then t.linkReady p else t.setPort p { t.port p with nextPlace := some (t.linkCell p) }

/-- R141: a cell starts. -/
def State.cellStart (p : Port) (sinceStartUs : Nat) (s : State) : State :=
  if (s.port p).nextPlace.isSome && (s.port p).mayStart sinceStartUs then
    if (s.port p).state = .linking then s.startLink p else s.setPort p (s.port p).start
  else s

/-- CELL_START (R141). -/
def execCellStart (p : Port) (sinceStartUs : Nat) (s : State) : Host.Outcome State Fault Refusal :=
  .next (s.cellStart p sinceStartUs)

/-- R142, R145, R149: what HOLD asserted at a boundary does. -/
def PortRec.boundaryAsserted (r : PortRec) : PortRec :=
  match r.state with
  | .ready => { r with state := .held, holdTimer := true }
  | .linking => { r with linkCount := 0 }
  | .draining => { r with holdTimer := true }
  | .off | .held | .stalled => r

/-- R141, R142: a strobe ends: the cell has left, and the boundary begins with HOLD as it is then. -/
def PortRec.sent (r : PortRec) (c : Staged) : PortRec :=
  let t := { r with sendingPlace := none, strobed := some c.cell, linkSent := r.linkSent || decide (r.state = .linking),
                    boundaryHold := r.boundaryHold || r.hold }
  if r.hold then t.boundaryAsserted else t

/-- R141, R149: a cell noted CONTEXT is reported as gone (R112), the Notice Queue is told of the port, and a DRAINING port
whose places are empty enters OFF. -/
def State.cellSent (p : Port) (s : State) : State :=
  match (s.port p).sendingPlace with
  | none => s
  | some c =>
    let t := s.setPort p ((s.port p).sent c)
    ((if c.fromContext then t.haltCheck p else t).selectPort p).drainDone p

/-- CELL_SENT (R141). -/
def execCellSent (p : Port) (s : State) : Host.Outcome State Fault Refusal := .next (s.cellSent p)

/-! ## HOLD (R142, R143, R144) -/

/-- The HOLD line of a port, as the port sees it. -/
def State.setHold (p : Port) (b : Bool) (s : State) : State := s.setPort p { s.port p with hold := b }

/-- R142: HOLD asserted at a boundary acts at once; during a strobe it counts at the strobe's end. -/
def PortRec.asserted (r : PortRec) : PortRec :=
  let t := { r with hold := true, boundaryHold := true }
  if r.sendingPlace.isNone then t.boundaryAsserted else t

/-- R142. -/
def State.holdAsserted (p : Port) (s : State) : State := (s.setPort p (s.port p).asserted).selectPort p

/-- HOLD_ASSERTED (R142). -/
def execHoldAsserted (p : Port) (s : State) : Host.Outcome State Fault Refusal := .next (s.holdAsserted p)

/-- R143, R145, R149: HOLD in the body of the cell on the line. A LINK cell that is still on the line when its port becomes
READY counts as the READY port's (log 15). -/
def State.slip (p : Port) (s : State) : State :=
  if (s.port p).sendingPlace.isNone then s
  else
    let t := s.setHold p true
    match (s.port p).state with
    | .ready => if (s.port p).slipArmed then t.slipPort p else t
    | .linking => t.setPort p { t.port p with linkCount := 0 }
    | .draining => if (s.port p).slipArmed then t.flushDraining p else t
    | .off | .held | .stalled => t

/-- SLIP (R143). -/
def execSlip (p : Port) (s : State) : Host.Outcome State Fault Refusal := .next (s.slip p)

/-- R144, R149: HOLD released. In LINKING the boundary that has met HOLD stays so (R145). -/
def PortRec.released (r : PortRec) : PortRec :=
  match r.state with
  | .held => { r with hold := false, boundaryHold := false, state := .ready, holdTimer := false }
  | .draining => { r with hold := false, boundaryHold := false, holdTimer := false }
  | .ready => { r with hold := false, boundaryHold := false }
  | .off | .linking | .stalled => { r with hold := false }

/-- R144. -/
def State.holdReleased (p : Port) (s : State) : State := (s.setPort p (s.port p).released).selectPort p

/-- HOLD_RELEASED (R144). -/
def execHoldReleased (p : Port) (s : State) : Host.Outcome State Fault Refusal := .next (s.holdReleased p)

/-! ## Timers (R144, R147, R148, R149) -/

/-- R144, R149: the hold timer expires. -/
def State.holdTimeout (p : Port) (elapsedMs : Nat) (s : State) : State :=
  if (s.port p).holdTimer ∧ Config.portIntervalMs (s.port p).settings.holdTimeout ≤ elapsedMs then
    match (s.port p).state with
    | .held => s.stall p .holdTimeout
    | .draining => s.flushDraining p
    | .off | .linking | .ready | .stalled => s
  else s

/-- HOLD_TIMEOUT (R144). -/
def execHoldTimeout (p : Port) (elapsedMs : Nat) (s : State) : Host.Outcome State Fault Refusal :=
  .next (s.holdTimeout p elapsedMs)

/-- R145, R147: the link timer expires in LINKING. -/
def State.linkTimeout (p : Port) (elapsedMs : Nat) (s : State) : State :=
  if (s.port p).state = .linking ∧ (s.port p).linkTimer ∧ Config.linkMs ≤ elapsedMs then s.stall p .linkTimeout else s

/-- LINK_TIMEOUT (R145). -/
def execLinkTimeout (p : Port) (elapsedMs : Nat) (s : State) : Host.Outcome State Fault Refusal :=
  .next (s.linkTimeout p elapsedMs)

/-- R148: the retry timer of a STALLED port expires. -/
def State.retryTimeout (p : Port) (elapsedMs : Nat) (s : State) : State :=
  if (s.port p).state = .stalled ∧ (s.port p).retryTimer ∧ Config.retryMs ≤ elapsedMs then s.enterLinking p else s

/-- RETRY_TIMEOUT (R148). -/
def execRetryTimeout (p : Port) (elapsedMs : Nat) (s : State) : Host.Outcome State Fault Refusal :=
  .next (s.retryTimeout p elapsedMs)

end Sys2Proof.Machine
end

