-- ==== Sys2Proof/Machine/Feed.lean ====
section
/-! DEFINITION. The Feed Ring Interface (chapter 8): arriving cells, slots, loss and restore, routes, and the report rows. -/
namespace Sys2Proof.Machine

/-! ## Outgoing slots (R176) -/

/-- The slot feed-out sends (log 23). -/
def State.sendSlot (c : List Byte) (s : State) : State := { s with fri := { s.fri with feedOut := some c } }

/-- R176: a free slot carries the cell bounced by a UNIT RESET, else the oldest queued cell, else IDLE. Of several bounced cells,
which no run makes wait together, the first bounced leaves first (log 26). -/
def State.fillSlot (s : State) : State :=
  match s.fri.bounced with
  | b :: rest => ({ s with fri := { s.fri with bounced := rest } } : State).sendSlot b
  | [] =>
    match s.fri.queue with
    | m :: rest => ({ s with fri := { s.fri with queue := rest } } : State).sendSlot (m.cell s.fri.address)
    | [] => s.sendSlot (idleCell s.fri.address)

/-! ## The intake (R169, R171) -/

/-- R169: both conditions of taking a cell. -/
def State.canTake (s : State) : Bool :=
  decide (s.fri.intake.length < Config.intakePlaces)
    && decide (s.fri.queue.length + s.fri.reservations < Config.replyPlaces)

/-- R169: the cell joins the intake with a reserved reply place. -/
def State.takeCell (c : List Byte) (s : State) : State :=
  { s with fri := { s.fri with intake := s.fri.intake ++ [c], reservations := s.fri.reservations + 1 } }

/-! ## LIVE cells (R172) -/

/-- R153: a LIVE cell joins the back of the live buffer. -/
def PortRec.copied (r : PortRec) (payload : List Byte) : PortRec := { r with live := r.live ++ [payload] }

/-- R153: a LIVE cell is dropped at the port. -/
def PortRec.dropped (r : PortRec) : PortRec := { r with liveGap := true }

/-- R194 against R172: at a port that a UNIT RESET under way has already reset, whose picture is not open and whose buffer has room,
R194 says "copied" and R172 and R153 say "dropped": a free value chooses, afresh for each cell (log 34). -/
def State.meetResetPort (payload : List Byte) (p : Port) (s : State) : PortRec :=
  let r := { s.port p with liveChoices := (s.port p).liveChoices + 1 }
  if Config.resetPortTakesLive s.epoch p.val (s.port p).liveChoices then r.copied payload else r.dropped

/-- R172, R153, R194: one port of a LIVE cell's entry, whatever the port's state. -/
def State.copyLive (payload : List Byte) (p : Port) (s : State) : State :=
  s.setPort p (
    if Config.livePlaces ≤ (s.port p).live.length then (s.port p).dropped
    else if s.pictureOpen p then (s.port p).copied payload
    else if s.resetTaken .panelPorts then s.meetResetPort payload p
    else (s.port p).dropped)

/-- R172, R198: each port of the channel's entry; a channel above 63 has none. -/
def State.routeLive (c : List Byte) (s : State) : State :=
  if cellChannel c > 63 then s
  else s.forPorts (PortSet.members (s.routeAt (cellChannel c))) (State.copyLive (cellPayload c))

/-! ## Arriving cells (R168) -/

/-- R168: a cell for this unit alone. -/
def State.meetOwn (c : List Byte) (s : State) : State :=
  if cellKind c = kindOrder ∨ cellKind c = kindLoad then
    if s.canTake then (s.takeCell c).fillSlot else s.sendSlot (bounceCell c)
  else if cellKind c = kindLive then (s.routeLive c).fillSlot
  else s.sendSlot c

/-- R168, R171: a cell for all units passes on in every case. -/
def State.meetAll (c : List Byte) (s : State) : State :=
  (if cellKind c = kindOrder ∧ s.canTake then s.takeCell c
   else if cellKind c = kindLive then s.routeLive c
   else s).sendSlot c

/-- R168: a valid cell at a unit with an address. -/
def State.meetCell (c : List Byte) (s : State) : State :=
  if cellKind c = kindIdle then s.fillSlot
  else if cellDest c = s.fri.address.toNat then s.meetOwn c
  else if cellDest c = Config.broadcastAddress then s.meetAll c
  else s.sendSlot c

/-- R168, R167: a valid cell; a unit without an address passes everything on. -/
def State.handleCell (c : List Byte) (s : State) : State := if s.addressed then s.meetCell c else s.sendSlot c

/-! ## Loss and restore (R180, R181) -/

/-- R181: the FEED_RESTORED claim, made or added to. A single loss above 65,535 s counts 65,535, as a total does (log 33). -/
def restoreClaim (lossTime now : Nat) : Option RestoredClaim → RestoredClaim
  | none => { lossTime := lossTime, restoreTime := now, lost := min 65535 (now - lossTime), occurrences := 1 }
  | some c =>
    { c with restoreTime := now, lost := min 65535 (c.lost + (now - lossTime)), occurrences := min 255 (c.occurrences + 1) }

/-- R181, R182, R167: a restore's claim; none without a loss time, and none at a unit without an address. -/
def State.claimRestored (lossTime : Option Nat) (s : State) : State :=
  match lossTime with
  | some t =>
    if s.addressed then
      s.withClaim fun u => { u with fri := { u.fri with restored := some (restoreClaim t u.now u.fri.restored) } }
    else s
  | none => s

/-- R180, R181: a valid cell starts the loss timer again and makes the feed FEED_UP. -/
def State.feedUp (s : State) : State := { s with fri := { s.fri with feed := .up, lossTimer := true, lossTime := none } }

/-- R181: the first valid cell of a loss; the claim and the cell are taken in either order (R179, log 22). -/
def State.restoreFeed (c : List Byte) (claimFirst : Bool) (s : State) : State :=
  let t := s.feedUp
  if claimFirst then (t.claimRestored s.fri.lossTime).handleCell c
  else (t.handleCell c).claimRestored s.fri.lossTime

/-- R168: a cell that fails its header check is discarded: its slot is free while the feed is up, and there is no slot of it
while the unit makes its own. -/
def State.discardCell (s : State) : State :=
  match s.fri.feed with
  | .up => s.fillSlot
  | .lost => s

/-- R168, R180, R181: one arriving cell. -/
def State.arrive (c : List Byte) (claimFirst : Bool) (s : State) : State :=
  if !headerOk c then s.discardCell
  else match s.fri.feed with
    | .up => s.feedUp.handleCell c
    | .lost => s.restoreFeed c claimFirst

/-- FEED_CELL_ARRIVAL (R168). A cell of another length than 80 bytes is no cell of the ring (log 24). -/
def execFeedCellArrival (cell : List Byte) (claimFirst : Bool) (s : State) : Host.Outcome State Fault Refusal :=
  if cell.length = Config.cellBytes then .next (s.arrive cell claimFirst) else .fault .malformedCommand

/-- R180: the loss timer runs out. -/
def State.feedLoss (elapsedMs : Nat) (s : State) : State :=
  if s.fri.feed = .up ∧ s.fri.lossTimer ∧ Config.lossMs ≤ elapsedMs then
    { s with fri := { s.fri with feed := .lost, lossTimer := false, lossTime := some s.now } }
  else s

/-- FEED_LOSS (R180). -/
def execFeedLoss (elapsedMs : Nat) (s : State) : Host.Outcome State Fault Refusal := .next (s.feedLoss elapsedMs)

/-- R180: while the feed is lost the unit makes its own slots, each free. -/
def State.ownSlot (s : State) : State :=
  match s.fri.feed with
  | .lost => s.fillSlot
  | .up => s

/-- OWN_SLOT (R180). -/
def execOwnSlot (s : State) : Host.Outcome State Fault Refusal := .next s.ownSlot

/-! ## Routes (R174, R175) -/

/-- R174: channel 0–63, port set. -/
def parseRouteSet (c : List Byte) : Option (Nat × PortSet) :=
  match orderFields c [6, 12] with
  | [n, ps] => some (n, PortSet.ofBits ps)
  | _ => none

/-- R175: the channel whose entry holds a port. -/
def State.channelOf (s : State) (p : Port) : Option Nat :=
  (s.fri.routes.find? fun e => PortSet.has e.2 p).map Prod.fst

/-- The ports that entries other than `n` hold. -/
def State.routedElsewhere (s : State) (n : Nat) : PortSet :=
  PortSet.ofPred fun p => s.fri.routes.any fun e => decide (e.1 ≠ n) && PortSet.has e.2 p

/-- R174: the entry other than `n` that holds a port. -/
def State.otherChannel (s : State) (n : Nat) (p : Port) : Nat :=
  ((s.fri.routes.find? fun e => decide (e.1 ≠ n) && PortSet.has e.2 p).map Prod.fst).getD 0

/-- R174: the lowest port of the new set that another entry holds. -/
def State.routeConflict (s : State) (n : Nat) (ps : PortSet) : Option Port :=
  (PortSet.members ps).find? fun p => PortSet.has (s.routedElsewhere n) p

/-- R174. -/
def actRouteSet (_ : OrderHead) (a : Nat × PortSet) (s : State) : State × Answer :=
  match s.routeConflict a.1 a.2 with
  | some p => (s, .refuse .portInRoute [.num 4 p.val, .num 6 (s.otherChannel a.1 p)])
  | none => (s.setRoute a.1 a.2, .ok [.num 6 a.1, Fld.ports (s.routeAt a.1), Fld.ports a.2])

/-- ROUTE_SET (R174). -/
def execRouteSet (s : State) : Host.Outcome State Fault Refusal := .next (s.order 0x78 parseRouteSet baseNone actRouteSet)

/-- R175. -/
def actRouteRead (_ : OrderHead) (first : Nat) (s : State) : State × Answer :=
  (s, .ok (((List.range (min 16 (64 - first))).map fun i => Fld.ports (s.routeAt (first + i)))
    ++ (allPorts.map fun p => Fld.opt 6 (s.channelOf p)).flatten))

/-- ROUTE_READ (R175). -/
def execRouteRead (s : State) : Host.Outcome State Fault Refusal :=
  .next (s.order 0x79 (parseOne 6 63) baseNone actRouteRead)

/-! ## The report rows (R178, log 6) -/

/-- REEL_END (R110). -/
def execReelEnd (s : State) : Host.Outcome State Fault Refusal := .next (s.reportStep .reelEnd)
/-- REEL_MARK (R104). -/
def execReelMark (s : State) : Host.Outcome State Fault Refusal := .next (s.reportStep .reelMark)
/-- HOLD_LAPSED (R45). -/
def execHoldLapsed (s : State) : Host.Outcome State Fault Refusal := .next (s.reportStep .holdLapsed)
/-- NOTICE_CLOSED (R134). -/
def execNoticeClosed (s : State) : Host.Outcome State Fault Refusal := .next (s.reportStep .noticeClosed)
/-- SEGMENT_FREED (R84). -/
def execSegmentFreed (s : State) : Host.Outcome State Fault Refusal := .next (s.reportStep .segmentFreed)
/-- PORT_STALLED (R158). -/
def execPortStalled (s : State) : Host.Outcome State Fault Refusal := .next (s.reportStep .portStalled)
/-- PORT_RESTORED (R158). -/
def execPortRestored (s : State) : Host.Outcome State Fault Refusal := .next (s.reportStep .portRestored)
/-- PANEL_WOKEN (R158). -/
def execPanelWoken (s : State) : Host.Outcome State Fault Refusal := .next (s.reportStep .panelWoken)
/-- FEED_RESTORED (R181). -/
def execFeedRestored (s : State) : Host.Outcome State Fault Refusal := .next (s.reportStep .feedRestored)
/-- DAY_ROLLED (R3). -/
def execDayRolled (s : State) : Host.Outcome State Fault Refusal := .next (s.reportStep .dayRolled)

end Sys2Proof.Machine
end

