-- ==== Sys2Proof/Machine/System.lean ====
section
/-! DEFINITION. The orders that act on the unit as a whole (9.3): HELLO, UNIT RESET and what each owner does at it, and
orders of unknown code. -/
namespace Sys2Proof.Machine

/-- R191: the reset-cause record. -/
def OrderHandler.fields (x : OrderHandler) : List Fld :=
  [.num 2 x.cause.code, .num 2 (previousCode x.previous), Fld.seconds x.resetTime]

/-- R192: the records of the segment table that are not EMPTY. -/
def State.usedSegments (s : State) : Nat := (s.sg.segs.filter fun e => e.2.freed?.isNone).length

/-- R192. Three readings of its table are the model's choice (log 17): the hold table is two counts, all records and the LAPSED ones
among them; so is the notice table, with the CLOSING ones; and the reply queue is two counts, queued cells and reservations. -/
def actHello (_ : OrderHead) (_ : Unit) (s : State) : State × Answer :=
  (s, .ok ([.num 5 s.fri.address.toNat, .num 16 Config.partCode, .num 8 Config.revision] ++ s.oh.fields ++ s.tb.clock.fields
    ++ [.num 1 s.fri.feed.code, Fld.seconds s.now, .num 7 s.st.shows.length,
        .num 7 s.sq.holds.length, .num 7 (s.sq.holds.filter fun h => !h.state.isLive).length,
        .num 5 s.nq.notices.length, .num 5 s.closingCount, .num 11 s.usedSegments,
        .num 5 s.fri.queue.length, .num 5 s.fri.reservations]))

/-- HELLO (R192). -/
def execHello (s : State) : Host.Outcome State Fault Refusal := .next (s.order 0x01 parseNone baseNone actHello)

/-! ## Unknown codes -/

/-- R186: the order in progress when its code names no order. -/
def State.unknownInProgress (s : State) : Option (List Byte) :=
  s.inProgress.filter fun c => decide (cellKind c = kindOrder) && !orderCodes.contains (orderHead c).code

/-- R186: checks 1 and 2. -/
def State.unknownOrder (s : State) : State :=
  match s.unknownInProgress with
  | none => s
  | some c =>
    if payloadOk c then s.answer c (.refuse .unknownOrder [])
    else s.placeReply (replyTo s c true (.refuse .badCell []))

/-- UNKNOWN_ORDER (R186). -/
def execUnknownOrder (s : State) : Host.Outcome State Fault Refusal := .next s.unknownOrder

/-! ## What the owners do at a UNIT RESET (R193) -/

/-- The owners that take the reset in their own time. -/
def resetOwners : List Owner :=
  [.timebase, .showTable, .seatTally, .boardComposer, .segmentTable, .reelTable, .playoutChannels, .noticeQueue, .panelPorts,
   .feedRing]

/-- R183: the FRI's part: the other intake cell bounced, the queue discarded, the routes emptied, a waiting FEED_RESTORED
claim discarded; the reset's own reservation is kept. R183 speaks of one waiting cell; that a cell which an earlier UNIT RESET
bounced and which still waits is kept, to leave before the one bounced now and so ahead of the reply, is the model's choice, for
states no run reaches: the slot in which the later UNIT RESET was taken has carried the earlier cell off (log 26). -/
def FeedRing.afterReset (x : FeedRing) : FeedRing :=
  { x with intake := x.intake.take 1, bounced := x.bounced ++ (x.intake.drop 1).map bounceCell, queue := [],
           reservations := 1, routes := [], restored := none }

/-- R191: the Order Handler's part. -/
def OrderHandler.afterReset (x : OrderHandler) (now : Nat) (progress : ResetProgress) : OrderHandler :=
  { cause := .unitReset, previous := some x.cause, resetTime := now, reset := some progress }

/-- R85: READY records stay, without pins; every other record becomes EMPTY without a claim. -/
def resetSegs (t : Tbl SegRecord) : Tbl SegRecord :=
  t.filterMap fun e =>
    match e.2 with
    | .used g => if g.state = .ready then some (e.1, .used { g with pins := 0 }) else none
    | .freed _ => none

/-- R165: what every port gets, whatever its state. -/
def PortRec.cleared (r : PortRec) : PortRec :=
  { r with settings := .initial, nextPlace := none, sendingPlace := none, live := [], liveGap := true, spacing := 0,
           darkOwed := false, restoreDue := none, linkTimer := false, holdTimer := false, retryTimer := false,
           keepAlive := .stopped, claims := [] }

/-- R165: one port at the reset: its staging is flushed (R141), and OFF and DRAINING become OFF, the others LINKING. The link
count of a port that becomes OFF is 0 (log 32). The relinking tells a context that has not yet taken the reset neither of a slip
nor of a mode change, so R107 does not restart its current word here: the model's choice (log 39). -/
def State.resetLine (p : Port) (s : State) : State :=
  let u := s.flushStaging p
  let t := u.setPort p (u.port p).cleared
  if (s.port p).state.outOfService then
    (t.setPort p { t.port p with state := .off, linkCount := 0, linkSent := false, boundaryHold := false }).selectPort p
  else t.enterLinking p

/-- R183: the FRI notes what it discards and bounces, for the reset's reply, and takes its part. -/
def State.resetFeed (s : State) : State :=
  let note := fun r : ResetProgress =>
    { r with discarded := s.fri.queue.length, bouncedKind := (s.fri.intake.drop 1).head?.map cellKind }
  { s with fri := s.fri.afterReset, oh := { s.oh with reset := s.oh.reset.map note } }

/-- R193: an owner sets its own state, as its chapter gives. The slots that the Notice Queue's part empties hand no cause on (R139):
a context that has not yet taken the reset stays SUSPENDED when its slot's TAKEOVER goes so, a reading of R139 against R106 that is
the model's (log 39). A part leaves what other owners hold as it is until they take the reset: behind the Seat Tally's part the
shows keep their held, free and availability, the model's choice (log 41). -/
def State.takeReset (o : Owner) (s : State) : State :=
  match o with
  | .timebase => { s with tb := { s.tb with clock := .unset, dayRolled := none } }
  | .showTable => { s with st := { titles := [], shows := [] } }
  | .seatTally => { s with sq := { holds := [] } }
  | .boardComposer => { s with bc := { boards := Vector.replicate 12 .initial } }
  | .segmentTable => { s with sg := { s.sg with segs := resetSegs s.sg.segs } }
  | .reelTable => { s with rl := { reels := [] } }
  | .playoutChannels => { s with pc := { contexts := Vector.replicate 12 .idle } }
  | .noticeQueue => { s with nq := { notices := [], slots := Vector.replicate 12 .initial } }
  | .panelPorts => s.forPorts allPorts State.resetLine
  | .feedRing => s.resetFeed

/-- R193: the reply's own fields: the record after the reset, the cells discarded, and one bit for whether a cell was bounced,
with its kind (log 17). -/
def resetFields (x : OrderHandler) (r : ResetProgress) : List Fld :=
  x.fields ++ [.num 5 r.discarded] ++ Fld.opt 2 r.bouncedKind

/-- R193: the reset's reply is placed; minute events and end notices of the time before the reset are gone with it
(log 10). -/
def State.finishReset (r : ResetProgress) (s : State) : State :=
  let t : State :=
    { s with oh := { s.oh with reset := none }
             paths := { s.paths with showMinutes := [], boardMinutes := [], endNotices := [] } }
  match s.fri.intake with
  | [] => t
  | c :: _ => t.answer c (.ok (resetFields s.oh r))

/-- R193: an owner takes the reset, whole: from here on it counts as one that has taken it. -/
def State.ownerTakes (o : Owner) (r : ResetProgress) (s : State) : State :=
  ({ s with oh := { s.oh with reset := some { r with owners := r.owners.erase o } } } : State).takeReset o

/-- R193: once every owner has taken the reset its reply is placed. -/
def State.replyIfTaken (s : State) : State :=
  match s.oh.reset with
  | some r => if r.owners.isEmpty then s.finishReset r else s
  | none => s

/-- R193: an owner that has not yet taken the reset takes it; the last one lets the reply be placed. -/
def State.resetTakenBy (o : Owner) (s : State) : State :=
  match s.oh.reset with
  | some r => if r.owners.contains o then (s.ownerTakes o r).replyIfTaken else s
  | none => s

/-- RESET_TAKEN_BY_OWNER (R193). -/
def execResetTakenByOwner (o : Owner) (s : State) : Host.Outcome State Fault Refusal := .next (s.resetTakenBy o)

/-! ## UNIT RESET (R193) -/

/-- R193, R191: the reset is handed to every owner, and the reset-cause record is updated. The FRI, which bounces the other
intake cell and discards the queue (R183), is one of the owners (log 9). -/
def State.beginReset (s : State) : State :=
  { s with oh := s.oh.afterReset s.now { owners := resetOwners, discarded := 0, bouncedKind := none } }

/-- R193, R186: UNIT RESET after the common checks; a refused one is answered like any order. -/
def State.unitReset (s : State) : State :=
  match s.orderOf 0x02 with
  | none => s
  | some c =>
    match checkOrder parseNone baseNone c s with
    | .refused unchecked reason body => s.placeReply (replyTo s c unchecked (.refuse reason body))
    | .passed _ => s.beginReset

/-- UNIT_RESET (R193). -/
def execUnitReset (s : State) : Host.Outcome State Fault Refusal := .next s.unitReset

end Sys2Proof.Machine
end

