-- ==== Sys2Proof/Machine/Dispatch.lean ====
section
/-! DEFINITION. exec: one arm for each command, each one direct call of the command's meaning. -/
namespace Sys2Proof.Machine

/-- The effect of a command on everything but the queue of commands. -/
def exec (i : Instr) (s : State) : Host.Outcome State Fault Refusal :=
  match i with
  | .powerOn straps => Sys2Proof.Machine.execPowerOn straps s
  | .runSecond => Sys2Proof.Machine.execRunSecond s
  | .holdExpiry => Sys2Proof.Machine.execHoldExpiry s
  | .noticeExpiry => Sys2Proof.Machine.execNoticeExpiry s
  | .clockSecond => Sys2Proof.Machine.execClockSecond s
  | .minuteEvent => Sys2Proof.Machine.execMinuteEvent s
  | .boardMinuteEvent => Sys2Proof.Machine.execBoardMinuteEvent s
  | .endNotice => Sys2Proof.Machine.execEndNotice s
  | .hello => Sys2Proof.Machine.execHello s
  | .unitReset => Sys2Proof.Machine.execUnitReset s
  | .unknownOrder => Sys2Proof.Machine.execUnknownOrder s
  | .clockSet => Sys2Proof.Machine.execClockSet s
  | .clockRead => Sys2Proof.Machine.execClockRead s
  | .titleLoad => Sys2Proof.Machine.execTitleLoad s
  | .titleClear => Sys2Proof.Machine.execTitleClear s
  | .showLoad => Sys2Proof.Machine.execShowLoad s
  | .showPublish => Sys2Proof.Machine.execShowPublish s
  | .showEdit => Sys2Proof.Machine.execShowEdit s
  | .showDelay => Sys2Proof.Machine.execShowDelay s
  | .showCancel => Sys2Proof.Machine.execShowCancel s
  | .showDrop => Sys2Proof.Machine.execShowDrop s
  | .showRead => Sys2Proof.Machine.execShowRead s
  | .seatHold => Sys2Proof.Machine.execSeatHold s
  | .seatConfirm => Sys2Proof.Machine.execSeatConfirm s
  | .seatRelease => Sys2Proof.Machine.execSeatRelease s
  | .seatSell => Sys2Proof.Machine.execSeatSell s
  | .seatRefund => Sys2Proof.Machine.execSeatRefund s
  | .tallyRead => Sys2Proof.Machine.execTallyRead s
  | .holdRead => Sys2Proof.Machine.execHoldRead s
  | .boardSet => Sys2Proof.Machine.execBoardSet s
  | .boardRepaint => Sys2Proof.Machine.execBoardRepaint s
  | .boardRead => Sys2Proof.Machine.execBoardRead s
  | .segmentDefine => Sys2Proof.Machine.execSegmentDefine s
  | .segmentFinish => Sys2Proof.Machine.execSegmentFinish s
  | .segmentRetire => Sys2Proof.Machine.execSegmentRetire s
  | .segmentRead => Sys2Proof.Machine.execSegmentRead s
  | .load => Sys2Proof.Machine.execLoad s
  | .reelWrite => Sys2Proof.Machine.execReelWrite s
  | .reelClear => Sys2Proof.Machine.execReelClear s
  | .reelRead => Sys2Proof.Machine.execReelRead s
  | .reelStart => Sys2Proof.Machine.execReelStart s
  | .reelHalt => Sys2Proof.Machine.execReelHalt s
  | .reelTest => Sys2Proof.Machine.execReelTest s
  | .portsTest => Sys2Proof.Machine.execPortsTest s
  | .noticePost => Sys2Proof.Machine.execNoticePost s
  | .noticeWithdraw => Sys2Proof.Machine.execNoticeWithdraw s
  | .noticeRead => Sys2Proof.Machine.execNoticeRead s
  | .portEnable => Sys2Proof.Machine.execPortEnable s
  | .portDisable => Sys2Proof.Machine.execPortDisable s
  | .portReset => Sys2Proof.Machine.execPortReset s
  | .portSet waitedMs sinceTakeMs => Sys2Proof.Machine.execPortSet waitedMs sinceTakeMs s
  | .routeSet => Sys2Proof.Machine.execRouteSet s
  | .routeRead => Sys2Proof.Machine.execRouteRead s
  | .feedCellArrival cell claimFirst => Sys2Proof.Machine.execFeedCellArrival cell claimFirst s
  | .feedLoss elapsedMs => Sys2Proof.Machine.execFeedLoss elapsedMs s
  | .ownSlot => Sys2Proof.Machine.execOwnSlot s
  | .reelEnd => Sys2Proof.Machine.execReelEnd s
  | .reelMark => Sys2Proof.Machine.execReelMark s
  | .holdLapsed => Sys2Proof.Machine.execHoldLapsed s
  | .noticeClosed => Sys2Proof.Machine.execNoticeClosed s
  | .segmentFreed => Sys2Proof.Machine.execSegmentFreed s
  | .portStalled => Sys2Proof.Machine.execPortStalled s
  | .portRestored => Sys2Proof.Machine.execPortRestored s
  | .panelWoken => Sys2Proof.Machine.execPanelWoken s
  | .feedRestored => Sys2Proof.Machine.execFeedRestored s
  | .dayRolled => Sys2Proof.Machine.execDayRolled s
  | .arbiterTake port => Sys2Proof.Machine.execArbiterTake port s
  | .keepaliveTimeout port elapsedMs => Sys2Proof.Machine.execKeepaliveTimeout port elapsedMs s
  | .cellStart port sinceStartUs => Sys2Proof.Machine.execCellStart port sinceStartUs s
  | .cellSent port => Sys2Proof.Machine.execCellSent port s
  | .holdAsserted port => Sys2Proof.Machine.execHoldAsserted port s
  | .slip port => Sys2Proof.Machine.execSlip port s
  | .holdReleased port => Sys2Proof.Machine.execHoldReleased port s
  | .holdTimeout port elapsedMs => Sys2Proof.Machine.execHoldTimeout port elapsedMs s
  | .linkTimeout port elapsedMs => Sys2Proof.Machine.execLinkTimeout port elapsedMs s
  | .retryTimeout port elapsedMs => Sys2Proof.Machine.execRetryTimeout port elapsedMs s
  | .resetTakenByOwner owner => Sys2Proof.Machine.execResetTakenByOwner owner s

end Sys2Proof.Machine
end

