-- ==== Sys2Proof/Machine/Step.lean ====
section
/-! DEFINITION. One step of the unit: the command at the front of the queue. -/
namespace Sys2Proof.Machine

/-- Take the command at the front of the queue and answer its outcome with the rest of the queue; with no command waiting
the unit idles (log 3). -/
def step (s : State) : Host.Outcome State Fault Refusal :=
  match s.pending with
  | [] => .next s
  | c :: rest => exec c { s with pending := rest }

/-- `s` with the command that a word of the table spells put in front of its queue: no word spells one, so `s`
(Sys2Proof/Decode.lean). -/
def State.withFetchWord (s : State) (nbits w : Nat) : State :=
  match decodeTableWord nbits w with
  | some c => s.pushFront c
  | none => s

end Sys2Proof.Machine
end

