-- ==== Sys2Proof/Safety.lean ====
section
/-! DEFINITION. The laws of the manual that every step keeps, each as a property of one state, and the words in which the
statements speak of orders. A law that a UNIT RESET
suspends between its owners says so by `reset`; `State.taken` says what each owner has left by then. -/
namespace Sys2Proof.Machine

/-! ## The FRI -/

/-- R177, the law of the reply queue: queued cells and reservations never exceed 16. Each intake cell has its reservation, the
intake holds at most two cells (R169), and a UNIT RESET under way is one of them (R170). -/
def State.replyLaw (s : State) : Prop :=
  s.fri.queue.length + s.fri.reservations ≤ 16 ∧ s.fri.reservations = s.fri.intake.length ∧ s.fri.intake.length ≤ 2
    ∧ (s.oh.reset.isSome = true → s.fri.intake ≠ [])

/-- R173, the law of routes: no port stands in the port sets of two entries. -/
def State.routesLaw (s : State) : Prop :=
  ∀ a ∈ s.fri.routes, ∀ b ∈ s.fri.routes, a.1 ≠ b.1 → a.2 &&& b.2 = 0

/-! ## Canonical form -/

/-- Every table, and the content memory, in its one form: rising places, and no entry that says what an empty place says. -/
def State.tablesLaw (s : State) : Prop :=
  Tbl.wf s.st.titles = true ∧ Tbl.wf s.st.shows = true ∧ Tbl.wf s.sg.segs = true ∧ Memory.wf s.sg.content = true
    ∧ Tbl.wf s.rl.reels = true ∧ (∀ e ∈ s.rl.reels, e.2 ≠ Reel.initial)
    ∧ Tbl.wf s.fri.routes = true ∧ (∀ e ∈ s.fri.routes, e.2 ≠ 0)

/-! ## Keys -/

/-- R31: the hold table has 64 places, and no two of its records share a hold key. -/
def State.holdsLaw (s : State) : Prop :=
  s.sq.holds.length ≤ 64 ∧ (s.sq.holds.map Hold.key).Nodup

/-- R118: the notice table has 24 places, no two of its records share a notice key, and they stand by priority, highest
first. -/
def State.noticesLaw (s : State) : Prop :=
  s.nq.notices.length ≤ 24 ∧ (s.nq.notices.map Notice.key).Nodup
    ∧ s.nq.notices.Pairwise fun a b => b.priority ≤ a.priority

/-! ## The clock and the lobby day -/

/-- R2: the ranges of a RUNNING clock. R10: effective start plus late-sale window of every record at or below 1799. -/
def State.dayLaw (s : State) : Prop :=
  (match s.tb.clock with | .unset => True | .running m x => m ≤ 1799 ∧ x ≤ 59)
    ∧ ∀ n x, s.showAt n = some x → x.effStart + x.window ≤ 1799

/-! ## UNIT RESET -/

/-- Whether owner `o` has taken a UNIT RESET that is under way (R193). -/
def State.taken (s : State) (o : Owner) : Prop := s.resetTaken o = true

/-- R193: each owner takes a UNIT RESET once. -/
def State.resetLaw (s : State) : Prop := ∀ r, s.oh.reset = some r → r.owners.Nodup

/-! ## Seats -/

/-- The seats of the LIVE holds that name show `n`. -/
def State.liveSeats (s : State) (n : Nat) : Nat := ((s.liveHolds n).map Hold.seats).sum

/-- R27, the law of the tally (free is capacity − sold − held, so the sum is the capacity), and R32, the law of held seats: a
show's held is the seats of the LIVE holds that name it; a DRAFT show has none and has sold none; a LIVE hold names a show
that is open, or ENDED with its end notice still to be taken, and an end notice names an ENDED show. -/
def State.tallyLaw (s : State) : Prop :=
  s.holdsLaw ∧ s.resetLaw
    ∧ (∀ n x, s.showAt n = some x → x.sold + x.held ≤ x.capacity ∧ (x.phase = .draft → x.sold = 0 ∧ x.held = 0))
    ∧ (¬ s.taken .seatTally → ∀ n x, s.showAt n = some x → x.held = s.liveSeats n)
    ∧ (¬ s.taken .showTable → ∀ h ∈ s.sq.holds, h.state = .live →
        ∃ x, s.showAt h.showNo = some x
          ∧ (x.phase.isOpen = true ∨ (x.phase = .ended ∧ ∃ e ∈ s.paths.endNotices, e.1 = h.showNo)))
    ∧ (¬ s.taken .showTable → ∀ e ∈ s.paths.endNotices, ∃ x, s.showAt e.1 = some x ∧ x.phase = .ended)
    ∧ (s.taken .seatTally → s.sq.holds = []) ∧ (s.taken .showTable → s.st.shows = [])

/-! ## Boards -/

/-- R49, R52, R54: every row list is the one that the records and the settings give, and every pending mark is on a row of the
board; between the owners of a UNIT RESET, what R11 and R50 leave. -/
def State.boardsLaw (s : State) : Prop :=
  s.resetLaw
    ∧ (¬ s.taken .showTable → ¬ s.taken .boardComposer → ∀ p, (s.board p).rowList = (s.board p).rowsFor s.st.shows)
    ∧ (s.taken .boardComposer → ∀ p, s.board p = .initial) ∧ (s.taken .showTable → s.st.shows = [])
    ∧ ∀ p i, (s.board p).pendingRows.getLsbD i = true → i < (s.board p).rows

/-! ## Segments -/

/-- R72, the law of pages: no two segments that are not EMPTY share a page, and none reaches past page 262,143 (R73). -/
def State.pagesLaw (s : State) : Prop :=
  (∀ n g, s.segAt n = some g → 1 ≤ g.length ∧ g.fill ≤ g.length ∧ g.firstPage + g.pages ≤ 262144)
    ∧ ∀ m n g k, s.segAt m = some g → s.segAt n = some k → m ≠ n →
        g.firstPage + g.pages ≤ k.firstPage ∨ k.firstPage + k.pages ≤ g.firstPage

/-- The run of a port's context. -/
def State.run? (s : State) (p : Port) : Option Run := (s.ctx p).run?

/-- R99, R101: what a prefetch of run `r` puts into its slot: the word the search finds, with the answer to its pin request, or
the end marker. -/
def State.prefetched (s : State) (r : Run) : Prefetch :=
  match s.searchNext r with
  | .marker reason => .marker reason
  | .word i w crossed =>
    match s.pinAnswer w.segment r.key w.offset w.count with
    | .granted => .good i w crossed
    | .notReady => .deferred i .segmentNotReady
    | .keyMismatch => .deferred i .keyMismatch

/-- R81: the pins a context holds on segment `n`: its current word and a good word in its slot. -/
def Context.pinsOn (c : Context) (n : Nat) : Nat :=
  match c.run? with
  | none => 0
  | some r => (if r.cur.segment = n then 1 else 0) + (if r.slot.pinned = some n then 1 else 0)

/-- Whether a notice is an open TAKEOVER that names segment `n`. -/
def Notice.pins (m : Notice) (n : Nat) : Bool :=
  m.state.isOpen && (match m.body with | .takeover seg _ => decide (seg = n) | .text _ => false)

/-- R81: the users of segment `n`. -/
def State.pinUsers (s : State) (n : Nat) : Nat :=
  (allPorts.map fun p => (s.ctx p).pinsOn n).sum + (s.nq.notices.filter fun m => m.pins n).length

/-- R81, the law of pins; between the owners of a UNIT RESET, what R85, R117 and R139 leave. -/
def State.pinsLaw (s : State) : Prop :=
  s.noticesLaw
    ∧ (s.oh.reset = none → ∀ n, s.pinsOf n = s.pinUsers n)
    ∧ (∀ n g, s.segAt n = some g → g.state = .loading → g.pins = 0)
    ∧ (s.taken .segmentTable → ∀ n, s.pinsOf n = 0)
    ∧ (s.taken .playoutChannels → ∀ p, s.ctx p = .idle) ∧ (s.taken .noticeQueue → s.nq.notices = [])

/-! ## Reels -/

/-- How many contexts in ACTIVE or SUSPENDED name reel `n`. -/
def State.boundBy (s : State) (n : Nat) : Nat := (allPorts.filter (s.bindsReel n)).length

/-- R89, the law of binding; between the owners of a UNIT RESET, what R87 and R117 leave. -/
def State.bindingLaw (s : State) : Prop :=
  (s.oh.reset = none → ∀ n, (s.reelAt n).binding = s.boundBy n)
    ∧ (s.taken .reelTable → s.rl.reels = []) ∧ (s.taken .playoutChannels → ∀ p, s.ctx p = .idle)

/-- R105, the law of the running context: ACTIVE only in mode LIVE, without a TAKEOVER shown, on a READY, HELD or LINKING
port. -/
def State.runningLaw (s : State) : Prop :=
  ∀ p r, s.ctx p = .running r → r.suspended = false → s.mayRun p = true

/-! ## Notices -/

/-- R125, the law of notice selection: every slot holds the first notice in table order that is WAITING or SHOWN, targets its
port, and finds the port eligible. -/
def State.selectionLaw (s : State) : Prop :=
  s.noticesLaw ∧ ∀ p, (s.slot p).shown = (s.selected p).map fun n => { key := n.key, form := n.form }

/-! ## Phases -/

/-- R13, the law of the show phase, for one record and the record its slot holds after a step. -/
def Phase.mayBecome (a b : Phase) : Bool :=
  match a with
  | .draft => decide (b ≠ .cancelled)
  | .selling => decide (b ≠ .draft)
  | .seating => decide (b ≠ .draft ∧ b ≠ .selling)
  | .running => decide (b = .running ∨ b = .ended ∨ b = .cancelled)
  | .ended => decide (b = .ended)
  | .cancelled => decide (b = .cancelled)

/-- The commands that may empty a show slot (R25, R11, R195). -/
def emptiesShows : Instr → Bool
  | .powerOn _ => true
  | .showDrop => true
  | .resetTakenByOwner o => decide (o = .showTable)
  | _ => false

/-! ## Orders: the words of the statements -/

/-- The code of each order (R201); the other commands are no orders of a known code. -/
def orderCode : Instr → Option Nat
  | .hello => some 0x01
  | .unitReset => some 0x02
  | .clockSet => some 0x08
  | .clockRead => some 0x09
  | .titleLoad => some 0x10
  | .titleClear => some 0x11
  | .showLoad => some 0x12
  | .showPublish => some 0x13
  | .showEdit => some 0x14
  | .showDelay => some 0x15
  | .showCancel => some 0x16
  | .showDrop => some 0x17
  | .showRead => some 0x18
  | .seatHold => some 0x20
  | .seatConfirm => some 0x21
  | .seatRelease => some 0x22
  | .seatSell => some 0x23
  | .seatRefund => some 0x24
  | .tallyRead => some 0x25
  | .holdRead => some 0x26
  | .boardSet => some 0x30
  | .boardRepaint => some 0x31
  | .boardRead => some 0x32
  | .segmentDefine => some 0x40
  | .segmentFinish => some 0x41
  | .segmentRetire => some 0x42
  | .segmentRead => some 0x43
  | .reelWrite => some 0x50
  | .reelClear => some 0x51
  | .reelRead => some 0x52
  | .reelStart => some 0x53
  | .reelHalt => some 0x54
  | .reelTest => some 0x55
  | .portsTest => some 0x56
  | .noticePost => some 0x60
  | .noticeWithdraw => some 0x61
  | .noticeRead => some 0x62
  | .portEnable => some 0x70
  | .portDisable => some 0x71
  | .portReset => some 0x72
  | .portSet _ _ => some 0x73
  | .routeSet => some 0x78
  | .routeRead => some 0x79
  | _ => none

/-- R186, check 4: whether the own fields of an order's cell are in range. -/
def fieldsInRange : Instr → List Byte → Bool
  | .hello, c => (parseNone c).isSome
  | .unitReset, c => (parseNone c).isSome
  | .clockSet, c => (parseClockSet c).isSome
  | .clockRead, c => (parseNone c).isSome
  | .titleLoad, c => (parseTitleLoad c).isSome
  | .titleClear, c => (parseOne 6 63 c).isSome
  | .showLoad, c => (parseShowLoad c).isSome
  | .showPublish, c => (parseShow c).isSome
  | .showEdit, c => (parseShowEdit c).isSome
  | .showDelay, c => (parseShowDelay c).isSome
  | .showCancel, c => (parseShow c).isSome
  | .showDrop, c => (parseShow c).isSome
  | .showRead, c => (parseShow c).isSome
  | .seatHold, c => (parseSeatHold c).isSome
  | .seatConfirm, c => (parseKey c).isSome
  | .seatRelease, c => (parseKey c).isSome
  | .seatSell, c => (parseSeats c).isSome
  | .seatRefund, c => (parseSeats c).isSome
  | .tallyRead, c => (parseShow c).isSome
  | .holdRead, c => (parseKey c).isSome
  | .boardSet, c => (parseBoardSet c).isSome
  | .boardRepaint, c => (parsePort c).isSome
  | .boardRead, c => (parsePort c).isSome
  | .segmentDefine, c => (parseDefine c).isSome
  | .segmentFinish, c => (parseSegment c).isSome
  | .segmentRetire, c => (parseSegment c).isSome
  | .segmentRead, c => (parseSegment c).isSome
  | .reelWrite, c => (parseReelWrite c).isSome
  | .reelClear, c => (parseOne 5 31 c).isSome
  | .reelRead, c => (parseReelRead c).isSome
  | .reelStart, c => (parseReelStart c).isSome
  | .reelHalt, c => (parsePort c).isSome
  | .reelTest, c => (parsePort c).isSome
  | .portsTest, c => (parseNone c).isSome
  | .noticePost, c => (parsePost c).isSome
  | .noticeWithdraw, c => (parseKey c).isSome
  | .noticeRead, c => (parseKey c).isSome
  | .portEnable, c => (parsePort c).isSome
  | .portDisable, c => (parsePort c).isSome
  | .portReset, c => (parsePort c).isSome
  | .portSet _ _, c => (parsePortSet c).isSome
  | .routeSet, c => (parseRouteSet c).isSome
  | .routeRead, c => (parseOne 6 63 c).isSome
  | _, _ => false

/-- What every reply to an order carries beside the common part, for the record that its cell names (R41, R71, R77, 1.4, 7.9;
log 16). -/
def orderBase : Instr → List Byte → State → List Fld
  | .showLoad, c, s => baseShow c s
  | .showPublish, c, s => baseShow c s
  | .showEdit, c, s => baseShow c s
  | .showDelay, c, s => baseShow c s
  | .showCancel, c, s => baseShow c s
  | .showDrop, c, s => baseShow c s
  | .seatHold, c, s => baseSeatHold c s
  | .seatConfirm, c, s => baseKeyTally c s
  | .seatRelease, c, s => baseKeyTally c s
  | .seatSell, c, s => baseTally c s
  | .seatRefund, c, s => baseTally c s
  | .tallyRead, c, s => baseTally c s
  | .holdRead, c, s => baseKeyTally c s
  | .segmentDefine, c, s => baseSegment c s
  | .segmentFinish, c, s => baseFinish c s
  | .segmentRetire, c, s => baseSegment c s
  | .segmentRead, c, s => baseSegment c s
  | .portEnable, c, s => basePort c s
  | .portDisable, c, s => basePort c s
  | .portReset, c, s => basePort c s
  | .portSet _ _, c, s => basePort c s
  | _, _, _ => []

/-- R170: the order in progress stands in cell `c` and carries the code `code`. -/
abbrev State.arrived (s : State) (code : Nat) (c : List Byte) : Prop :=
  s.oh.reset = none ∧ s.fri.intake.head? = some c ∧ cellKind c = 1 ∧ (orderHead c).code = code

/-- R186: the order in progress in cell `c` carries the code `code` and the own fields `a`, and passes the payload check, the
address check (R187), the range checks and the clock guard (R188): every check before the order's own conditions. -/
abbrev State.passes {α : Type} (s : State) (code : Nat) (parse : List Byte → Option α) (c : List Byte) (a : α) : Prop :=
  s.arrived code c ∧ payloadOk c = true ∧ (cellDest c = 31 → code = 0x01 ∨ code = 0x08)
    ∧ (orderHead c).desk ≤ 31 ∧ (orderHead c).key ≤ 15 ∧ parse c = some a
    ∧ ((orderHead c).guard = true → s.tb.clock ≠ .unset ∨ code = 0x01 ∨ code = 0x02 ∨ code = 0x08 ∨ code = 0x09)

/-- R189, 10.2: a reply to the order in cell `c`, placed at the present run-second count. -/
def State.replyFor (s : State) (c : List Byte) (unchecked : Bool) (outcome : ReplyOutcome) (reason : Reason)
    (body : List Fld) : Reply :=
  { code := (orderHead c).code, tag := (orderHead c).tag, desk := (orderHead c).desk, unchecked := unchecked,
    outcome := outcome, reason := reason, placed := s.tb.runSeconds, body := body }

/-- R177, R170: the FRI after a reply has taken the reservation of the order in progress: the reply stands at the back of the
queue, the reservation is used up, the intake place is free, and nothing else of the FRI has moved. -/
def State.placed (s : State) (r : Reply) : FeedRing :=
  { s.fri with queue := s.fri.queue ++ [.reply r], reservations := s.fri.reservations - 1, intake := s.fri.intake.tail }

/-- The FRI after the checked order in cell `c` has been answered. -/
def State.replied (s : State) (c : List Byte) (outcome : ReplyOutcome) (reason : Reason) (body : List Fld) : FeedRing :=
  s.placed (s.replyFor c false outcome reason body)

/-- The state in which the order in cell `c` has been refused: its reply is placed and nothing else has moved (R186). -/
def State.refused (s : State) (c : List Byte) (reason : Reason) (body : List Fld) : State :=
  { s with fri := s.replied c .accepted reason body }

/-- The state in which the order in cell `c` has been answered ACCEPTED with reason NONE and nothing else has moved. -/
def State.answeredOnly (s : State) (c : List Byte) (body : List Fld) : State :=
  { s with fri := s.replied c .accepted .none body }

/-- Whether a queued cell is a report. -/
def OutMsg.isReport : OutMsg → Bool
  | .report _ => true
  | .reply _ => false

/-- The FRI after an order that may also have made claims: reports may stand before its reply (R178). -/
def State.answered (s t : State) (c : List Byte) (outcome : ReplyOutcome) (reason : Reason) (body : List Fld) : Prop :=
  ∃ l, (l.all OutMsg.isReport) = true
    ∧ t.fri = { s.fri with queue := s.fri.queue ++ l ++ [.reply (s.replyFor c false outcome reason body)],
                           reservations := s.fri.reservations - 1, intake := s.fri.intake.tail,
                           restored := t.fri.restored }

/-- R177: no place of the reply queue is free, so that every claim waits. -/
abbrev State.full (s : State) : Prop := 16 ≤ s.fri.queue.length + s.fri.reservations

/-- No end notice of show `n` is on its way to the Seat Tally (R44). -/
abbrev State.noEndNotice (s : State) (n : Nat) : Prop := ∀ e ∈ s.paths.endNotices, e.1 ≠ n

/-- R44: an untaken end notice of show `n` is taken before the order of command `i`. With no free place the order then does what
it does at the state that the pass of R43 leaves; with free places too, and reports may then stand before its reply
(log 30). -/
abbrev State.behindEndNotice (s : State) (n : Nat) (i : Instr) : Prop :=
  ∀ cause, s.endCause n = some cause →
    (s.full ∨ s.liveHolds n = [] → exec i s = exec i ((s.dropEndNotices n).endPass n cause))
    ∧ (s.liveHolds n ≠ [] → ∃ t v q l r, exec i s = .next t
        ∧ exec i (((s.dropEndNotices n).serveWaiting).endPass n cause) = .next v
        ∧ v.fri.queue = q ++ [.reply r] ∧ (l.all OutMsg.isReport) = true ∧ t.fri.queue = q ++ l ++ [.reply r]
        ∧ t.st = v.st ∧ t.bc = v.bc ∧ t.paths = v.paths
        ∧ t.sq.holds.filter (fun h => h.state.isLive) = v.sq.holds.filter (fun h => h.state.isLive))

/-- R108, R110: a run of port `p` has ended with the record `x`: its REEL_END report is queued and the context is IDLE, or the
context holds the record in STATUS_PENDING. -/
def State.endedWith (t : State) (p : Port) (x : StatusRecord) : Prop :=
  t.ctx p = .statusPending x
    ∨ (t.ctx p = .idle ∧ OutMsg.report { kind := .reelEnd, built := x.endTime, body := x.fields } ∈ t.fri.queue)

/-- The boards once they have taken a show change of `n`, for the records of `t` (R55). -/
def State.boardsTold (s t : State) (n : Nat) : BoardComposer := (State.showChange n { s with st := t.st }).bc

/-- The boards once they have taken a show change of each show of a list, front first, for the records of `t` (R55, log 13). -/
def State.boardsToldAll (s t : State) (ns : List Nat) : BoardComposer := (State.showChanges ns { s with st := t.st }).bc

/-- R17, R18: the shows in which a minute changes a displayed field, lowest first: phase or listing, since it moves no other. -/
def State.movedBy (s : State) (m : Nat) : List Nat :=
  (s.st.shows.filter fun e =>
    let y := (e.2.evaluate m).retest m
    decide (y.phase ≠ e.2.phase ∨ y.listed ≠ e.2.listed)).map Prod.fst

end Sys2Proof.Machine
end

