-- ==== Sys2Proof/Certificates/Slice0/Obligations.lean ====
section
/-! DEFINITION. The statements for the provers. -/

open Sys2Proof Sys2Proof.Machine

/-! ## The queue of commands -/

/-- A step runs the command in front: it is exec of that command on the state with the rest of the queue. With no command
waiting the block idles (the model's choice, log 3). -/
def Obligations.StepRunsTheFrontCommand : Prop :=
  (∀ (c : Instr) (s : State), step { s with pending := c :: s.pending } = exec c s)
  ∧ (∀ s : State, s.pending = [] → step s = .next s)

/-- Every well-formed command is carried out in every state; the one ill-formed command, an arriving cell that has not 80
bytes, stops with its fault (log 24), in every state. -/
def Obligations.WellFormedCommandsComplete : Prop :=
  (∀ (c : Instr) (s : State), c.wellFormed = true → ∃ t, exec c s = .next t)
    ∧ ∀ (cell : List Byte) (claimFirst : Bool) (s : State), cell.length ≠ 80 →
        exec (.feedCellArrival cell claimFirst) s = .fault .malformedCommand

/-- No command touches the queue of commands behind it (the model's form). R1, R68, R167, R191: what only one command writes:
the run-second count, the content memory, the unit address, the record of the reset cause. -/
def Obligations.OnlyOneCommandWrites : Prop :=
  (∀ (c : Instr) (s t : State), exec c s = .next t → t.pending = s.pending)
  ∧ (∀ (c : Instr) (s t : State), exec c s = .next t → (∀ straps, c ≠ .powerOn straps) →
      (c ≠ .runSecond → t.tb.runSeconds = s.tb.runSeconds) ∧ (c ≠ .load → t.sg.content = s.sg.content)
      ∧ t.fri.address = s.fri.address ∧ t.epoch = s.epoch
      ∧ (c ≠ .unitReset → t.oh.cause = s.oh.cause ∧ t.oh.previous = s.oh.previous ∧ t.oh.resetTime = s.oh.resetTime))

/-- An order command whose order is not the one in progress changes nothing (the model's choice, log 2); nor do LOAD without a
LOAD cell in progress, UNKNOWN_ORDER without an order of unknown code, and RESET_TAKEN_BY_OWNER of an owner that has nothing
to take. -/
def Obligations.AbsentCommandsChangeNothing : Prop :=
  (∀ s : State,
      (∀ (i : Instr) (code : Nat), orderCode i = some code → (∀ c, ¬ s.arrived code c) → exec i s = .next s)
      ∧ ((∀ c, s.fri.intake.head? = some c → s.oh.reset = none → cellKind c ≠ 2) → exec .load s = .next s)
      ∧ ((∀ c, s.fri.intake.head? = some c → s.oh.reset = none → cellKind c = 1 → (orderHead c).code ∈ orderCodes) →
          exec .unknownOrder s = .next s))
  ∧ (∀ (s : State) (o : Owner), (∀ x, s.oh.reset = some x → o ∉ x.owners) → exec (.resetTakenByOwner o) s = .next s)

/-! ## Power, the Timebase (chapter 1) -/

/-- R195: power-on. The unlisted content memory (log 5), the level of the HOLD lines and the commands already sent (log 4) are
the model's choices. -/
def Obligations.PowerOnSetsEveryOwner : Prop :=
  ∀ (straps : BitVec 5) (s : State), ∃ t, exec (.powerOn straps) s = .next t
    ∧ t.tb = { runSeconds := 0, clock := .unset, dayRolled := none }
    ∧ t.paths = { tallySeconds := [], noticeSeconds := [], showMinutes := [], boardMinutes := [], endNotices := [] }
    ∧ t.st = { titles := [], shows := [] } ∧ t.sq = { holds := [] } ∧ t.sg = { segs := [], content := [] }
    ∧ t.rl = { reels := [] } ∧ t.nq.notices = []
    ∧ (∀ p, t.board p = { rows := 0, filter := BitVec.allOnes 24, window := 0, cancelledShown := true, windowMinute := none,
                          rowList := [], pendingRows := 0 })
    ∧ (∀ p, t.ctx p = .idle)
    ∧ (∀ p, t.slot p = { shown := none, clearOwed := false, textOwed := false, cutOwed := false, position := 0,
                         repeatCut := false })
    ∧ (∀ p, (t.port p).state = .off ∧ (t.port p).nextPlace = none ∧ (t.port p).sendingPlace = none
        ∧ (t.port p).settings = { mode := .live, gap := 0, spacing := 3, holdTimeout := 3, keepAlive := 4, slipCheck := true,
                                  wakeLevel := 2 }
        ∧ (t.port p).live = [] ∧ (t.port p).liveGap = true ∧ (t.port p).spacing = 0 ∧ (t.port p).darkOwed = false
        ∧ (t.port p).linkCount = 0 ∧ (t.port p).restoreDue = none ∧ (t.port p).linkTimer = false
        ∧ (t.port p).holdTimer = false ∧ (t.port p).retryTimer = false ∧ (t.port p).keepAlive = .stopped
        ∧ (t.port p).claims = [] ∧ (t.port p).hold = (s.port p).hold)
    ∧ t.fri = { address := straps, feed := .lost, lossTimer := false, lossTime := none, intake := [], queue := [],
                reservations := 0, routes := [], restored := none, bounced := [], feedOut := none }
    ∧ t.oh = { cause := .power, previous := none, resetTime := 0, reset := none } ∧ t.pending = s.pending

/-- R1: the run-second count, its events, and the count at which it stays (log 25). R2, R3: one second of the lobby clock; at
the day's roll the DAY_ROLLED claim, waiting while no place is free, and queued at once where a place is free and no claim
waits (R178, log 6). -/
def Obligations.SecondsAreCounted : Prop :=
  (∀ s : State,
      (s.tb.runSeconds < 4294967295 →
        exec .runSecond s = .next { s with
          tb := { s.tb with runSeconds := s.tb.runSeconds + 1 },
          paths := { s.paths with tallySeconds := s.paths.tallySeconds ++ [s.tb.runSeconds + 1],
                                  noticeSeconds := s.paths.noticeSeconds ++ [s.tb.runSeconds + 1] } })
      ∧ (4294967295 ≤ s.tb.runSeconds → exec .runSecond s = .next s))
  ∧ (∀ s : State,
      (s.tb.clock = .unset → exec .clockSecond s = .next s)
      ∧ (∀ m x, s.tb.clock = .running m x → x < 59 →
          exec .clockSecond s = .next { s with tb := { s.tb with clock := .running m (x + 1) } })
      ∧ (∀ m x, s.tb.clock = .running m x → 59 ≤ x → m < 1799 →
          exec .clockSecond s = .next { s with
            tb := { s.tb with clock := .running (m + 1) 0 },
            paths := { s.paths with showMinutes := s.paths.showMinutes ++ [m + 1],
                                    boardMinutes := s.paths.boardMinutes ++ [m + 1] } })
      ∧ (∀ m x, s.tb.clock = .running m x → 59 ≤ x → 1799 ≤ m → s.full →
          exec .clockSecond s = .next { s with
            tb := { s.tb with
              clock := .running 0 0,
              dayRolled := some (match s.tb.dayRolled with
                | none => { runSecond := s.tb.runSeconds, rolls := 1 }
                | some c => { c with rolls := min 255 (c.rolls + 1) }) },
            paths := { s.paths with showMinutes := s.paths.showMinutes ++ [0],
                                    boardMinutes := s.paths.boardMinutes ++ [0] } })
      ∧ (∀ m x, s.tb.clock = .running m x → 59 ≤ x → 1799 ≤ m → ¬ s.full → s.oh.reset = none → s.firstClaim = none →
          exec .clockSecond s = .next { s with
            tb := { s.tb with clock := .running 0 0, dayRolled := none },
            fri := { s.fri with queue := s.fri.queue ++ [.report { kind := .dayRolled, built := s.tb.runSeconds,
                                                                   body := [.num 32 s.tb.runSeconds, .num 8 1] }] },
            paths := { s.paths with showMinutes := s.paths.showMinutes ++ [0],
                                    boardMinutes := s.paths.boardMinutes ++ [0] } }))

/-- R18: at a minute event every occupied show is evaluated, the listing of a CANCELLED one tested again (log 12), and the
shows that end are reported to the Seat Tally (R14), lowest show number first, the model's choice (log 37). R17, R55: the boards
take a show change of each show whose phase or listing has moved, lowest show first (log 13). R53: a minute event at the Board
Composer; R50: one that reaches it behind its part of a UNIT RESET is discarded. -/
def Obligations.MinuteEventsMoveShowsAndBoards : Prop :=
  (∀ s : State,
      (s.paths.showMinutes = [] → exec .minuteEvent s = .next s)
      ∧ ∀ m rest, s.paths.showMinutes = m :: rest → ∃ t, exec .minuteEvent s = .next t
          ∧ (∀ n, t.showAt n = (s.showAt n).map fun x => (x.evaluate m).retest m)
          ∧ t.paths = { s.paths with
              showMinutes := rest,
              endNotices := s.paths.endNotices ++
                (s.st.shows.filter fun e => decide (e.2.phase ≠ .ended ∧ (e.2.evaluate m).phase = .ended)).map
                  fun e => (e.1, .showEnded) }
          ∧ t.bc = s.boardsToldAll t (s.movedBy m)
          ∧ t = { s with st := { s.st with shows := t.st.shows }, bc := t.bc, paths := t.paths })
  ∧ (∀ s : State,
      (s.paths.boardMinutes = [] → exec .boardMinuteEvent s = .next s)
      ∧ ∀ m rest, s.paths.boardMinutes = m :: rest →
          (s.taken .boardComposer →
            exec .boardMinuteEvent s = .next { s with paths := { s.paths with boardMinutes := rest } })
          ∧ (¬ s.taken .boardComposer → ∃ t, exec .boardMinuteEvent s = .next t
              ∧ (∀ p, t.board p = { s.board p with windowMinute := some m, rowList := (t.board p).rowsFor s.st.shows,
                                                   pendingRows := (t.board p).pendingRows })
              ∧ (∀ p i, i < 16 → ((t.board p).pendingRows.getLsbD i = true ↔
                  (s.board p).pendingRows.getLsbD i = true
                    ∨ (i < (s.board p).rows ∧ ((s.board p).rowList[i]?).getD none ≠ ((t.board p).rowList[i]?).getD none)))
              ∧ t = { s with bc := t.bc, paths := { s.paths with boardMinutes := rest } }))

/-- R5: CLOCK SET. R17, R55: the boards take a show change of each show whose phase or listing it moves, lowest show first
(log 13); that the end notices stand lowest show number first is the model's choice (log 37). -/
def Obligations.ClockSetSetsClockAndShows : Prop :=
  ∀ (s : State) (c : List Byte) (m x : Nat), s.passes 0x08 parseClockSet c (m, x) →
    m ≤ 1799 ∧ x ≤ 59 ∧ ∃ t, exec .clockSet s = .next t
      ∧ t.tb = { s.tb with clock := .running m x }
      ∧ (∀ n, t.showAt n = (s.showAt n).map fun y => (y.evaluate m).retest m)
      ∧ t.paths = { s.paths with
          boardMinutes := s.paths.boardMinutes ++ [m],
          endNotices := s.paths.endNotices ++
            (s.st.shows.filter fun e => decide (e.2.phase ≠ .ended ∧ (e.2.evaluate m).phase = .ended)).map
              fun e => (e.1, .showEnded) }
      ∧ t.fri = s.replied c .accepted .none
          [.num 1 s.tb.clock.code, .num 11 s.tb.clock.minute, .num 6 s.tb.clock.second, .num 11 m, .num 6 x,
           .num 7 (s.st.shows.filter fun e => decide (e.2.phase ≠ (e.2.evaluate m).phase)).length]
      ∧ t.bc = s.boardsToldAll t (s.movedBy m)
      ∧ t = { s with tb := t.tb, st := { s.st with shows := t.st.shows }, bc := t.bc, paths := t.paths, fri := t.fri }

/-- R6: the reply to CLOCK READ, the state it leaves, and the broadcast one. One bit for whether a DAY_ROLLED claim waits and for
the presence of its count (log 17), and a BAD_ADDRESS reply without own fields (log 16), are the model's choices. -/
def Obligations.ClockReadAnswersTheClock : Prop :=
  (∀ (s : State) (c : List Byte), s.passes 0x09 parseNone c () →
    let body : List Fld :=
      [.num 1 (match s.tb.clock with | .unset => 0 | .running _ _ => 1),
       .num 11 (match s.tb.clock with | .unset => 0 | .running m _ => m),
       .num 6 (match s.tb.clock with | .unset => 0 | .running _ x => x), .num 32 s.tb.runSeconds]
        ++ match s.tb.dayRolled with | none => [.num 1 0] | some d => [.num 1 1, .num 8 d.rolls]
    exec .clockRead s = .next (s.answeredOnly c body))
  ∧ ∀ (s : State) (c : List Byte), s.arrived 0x09 c → payloadOk c = true → cellDest c = 31 →
      exec .clockRead s = .next (s.refused c .badAddress [])

/-! ## Lapses and deadlines (2.4, 6.3) -/

/-- R42: the pass of a run-second event over the holds; R44: behind the end notices of the shows whose holds it would lapse,
whose pass takes every LIVE hold of such a show, with the notice's cause and the present count. R43: the pass of an end notice
over the holds of its show. R29, R55 behind each: availability, and a show change of each show whose free or availability has
changed. R44: a SEAT CONFIRM that meets an untaken end notice is answered HOLD_LAPSED. That no end notice of the show is left on
the path behind it, the order of the shows of one event, and that the pass's claims are given places only once the order has been
taken, is the model's reading (logs 11, 13 and 30). The show table is in its one form, rising show numbers, as every step keeps it
(TableLawsKept). -/
def Obligations.HoldsLapseAtDeadlineOrEnd : Prop :=
  (∀ s : State,
      (s.paths.tallySeconds = [] → exec .holdExpiry s = .next s)
      ∧ ∀ count rest, s.paths.tallySeconds = count :: rest → s.holdsLaw → Tbl.wf s.st.shows = true →
          let due := fun n : Nat => decide (n < 96) && (s.liveHolds n).any fun h => decide (h.deadline ≤ count)
          let notice := fun n : Nat => if due n then s.endCause n else none
          let lapses := fun h : Hold => h.state.isLive && (decide (h.deadline ≤ count) || (notice h.showNo).isSome)
          ∃ t, exec .holdExpiry s = .next t
            ∧ t.sq.holds.filter (fun h => h.state.isLive) = s.sq.holds.filter (fun h => h.state.isLive && !lapses h)
            ∧ (∀ n x, n < 96 → s.showAt n = some x → t.showAt n = some
                (let gone := s.sq.holds.filter fun h => lapses h && decide (h.showNo = n)
                 if gone = [] then x
                 else { x with held := x.held - (gone.map Hold.seats).sum,
                               avail := Avail.recompute (x.capacity - x.sold - (x.held - (gone.map Hold.seats).sum)) x.few x.band
                                 x.avail }))
            ∧ t.bc = s.boardsToldAll t ((List.range 96).filter fun n =>
                decide ((t.showAt n).map Show.printed ≠ (s.showAt n).map Show.printed))
            ∧ t.paths = { s.paths with tallySeconds := rest, endNotices := s.paths.endNotices.filter fun e => !due e.1 }
            ∧ (s.full →
                t.sq.holds = (s.sq.holds.map fun h =>
                  if lapses h then
                    { h with state := match notice h.showNo with
                        | some cause => .lapsed cause s.tb.runSeconds
                        | none => .lapsed .expired count }
                  else h)
                ∧ t = { s with st := { s.st with shows := t.st.shows }, sq := t.sq, bc := t.bc, paths := t.paths }))
  ∧ (∀ s : State,
      (s.paths.endNotices = [] → exec .endNotice s = .next s)
      ∧ ∀ n cause rest x, s.paths.endNotices = (n, cause) :: rest → s.holdsLaw → s.showAt n = some x →
          ∃ t y, exec .endNotice s = .next t
            ∧ y = (if s.liveHolds n = [] then x
                 else { x with held := x.held - s.liveSeats n,
                               avail := Avail.recompute (x.capacity - x.sold - (x.held - s.liveSeats n)) x.few x.band x.avail })
            ∧ t.sq.holds.filter (fun h => h.state.isLive)
                = s.sq.holds.filter (fun h => h.state.isLive && decide (h.showNo ≠ n))
            ∧ t.showAt n = some y ∧ (∀ m, m ≠ n → t.showAt m = s.showAt m)
            ∧ t.bc = (if y.printed = x.printed then s.bc else s.boardsTold t n)
            ∧ (s.full →
                t.sq.holds = (s.sq.holds.map fun h =>
                  if h.state = .live ∧ h.showNo = n then { h with state := .lapsed cause s.tb.runSeconds } else h)
                ∧ t = { s with st := { s.st with shows := t.st.shows }, sq := t.sq, bc := t.bc,
                               paths := { s.paths with endNotices := rest } }
                ∧ t = State.endPass n cause { s with paths := { s.paths with endNotices := rest } }))
  ∧ (∀ (s : State) n cause rest, s.paths.endNotices = (n, cause) :: rest → s.holdsLaw → s.showAt n = none →
      ∃ t, exec .endNotice s = .next t ∧ t.st = s.st ∧ t.bc = s.bc
        ∧ t.sq.holds.filter (fun h => h.state.isLive)
            = s.sq.holds.filter (fun h => h.state.isLive && decide (h.showNo ≠ n))
        ∧ (s.full →
            t.sq.holds = (s.sq.holds.map fun h =>
              if h.state = .live ∧ h.showNo = n then { h with state := .lapsed cause s.tb.runSeconds } else h)
            ∧ t = { s with sq := t.sq, paths := { s.paths with endNotices := rest } }))
  ∧ (∀ (s : State) (c : List Byte) (h : Hold), s.passes 0x21 parseKey c h.key → h ∈ s.sq.holds → h.state = .live → s.holdsLaw →
      (h.showNo, .showEnded) ∈ s.paths.endNotices → (∀ e ∈ s.paths.endNotices, e.2 = .showEnded) →
      ∃ t body, exec .seatConfirm s = .next t
        ∧ s.answered t c .accepted .holdLapsed
            ([.num 5 h.key.desk, .num 16 h.key.tag, .num 7 h.showNo, .num 5 h.seats, .num 2 1, .num 32 s.tb.runSeconds] ++ body)
        ∧ (∀ k ∈ t.sq.holds, k.key ≠ h.key) ∧ (∀ k ∈ t.sq.holds, k.state = .live → k.showNo ≠ h.showNo)
        ∧ (∀ x, s.showAt h.showNo = some x → ∃ y, t.showAt h.showNo = some y
            ∧ y = { x with
                held := x.held - s.liveSeats h.showNo
                avail := Avail.recompute (x.capacity - x.sold - (x.held - s.liveSeats h.showNo)) x.few x.band x.avail }
            ∧ t.bc = (if y.printed = x.printed then s.bc else s.boardsTold t h.showNo))
        ∧ (∀ m, m ≠ h.showNo → t.showAt m = s.showAt m)
        ∧ ∀ e ∈ t.paths.endNotices, e.1 ≠ h.showNo)

/-- R133: the pass of a run-second event over the notices. -/
def Obligations.NoticesCloseAtTheirDeadline : Prop :=
  ∀ s : State,
    (s.paths.noticeSeconds = [] → exec .noticeExpiry s = .next s)
    ∧ ∀ count rest, s.paths.noticeSeconds = count :: rest → s.noticesLaw → ∃ t, exec .noticeExpiry s = .next t
        ∧ (∀ n ∈ t.nq.notices, n.state.isOpen = true → ∀ d, n.deadline = some d → count < d)
        ∧ t.tb.runSeconds = s.tb.runSeconds ∧ t.st = s.st ∧ t.sg.content = s.sg.content ∧ t.oh = s.oh
        ∧ t.paths = { s.paths with noticeSeconds := rest }
        ∧ (s.full →
            t.nq.notices.map (fun n => (n.key, n.priority, n.body, n.targets, n.duration, n.deadline, n.binding, n.state.isOpen))
              = s.nq.notices.map (fun n => (n.key, n.priority, n.body, n.targets, n.duration, n.deadline, n.binding,
                  n.state.isOpen && !(n.deadline.any fun d => decide (d ≤ count))))
            ∧ (∀ n ∈ s.nq.notices, n.state.isOpen = true → (∃ d, n.deadline = some d ∧ d ≤ count) →
                ∃ m ∈ t.nq.notices, m.key = n.key ∧ m.state = .closing count ∧ m.claimed = true)
            ∧ t = { s with
                sg := { s.sg with segs := t.sg.segs }, rl := t.rl, pc := t.pc, nq := t.nq, pp := t.pp
                paths := { s.paths with noticeSeconds := rest } })

/-! ## Orders (9.1) -/

/-- R186, R187, R188: what becomes of an order that fails a check before its own conditions, in the sequence of the checks. What
the reply carries beside the common part (R41, R71, R77) is read from the cell as it stands (the model's choice, log 16). -/
def Obligations.OrderChecksInSequence : Prop :=
  (∀ (i : Instr) (code : Nat) (s : State) (c : List Byte), orderCode i = some code → s.arrived code c →
    (payloadOk c = false →
      exec i s = .next { s with fri := s.placed (s.replyFor c true .accepted .badCell (orderBase i c s)) })
    ∧ (payloadOk c = true → cellDest c = 31 → code ≠ 0x01 → code ≠ 0x08 →
        exec i s = .next (s.refused c .badAddress (orderBase i c s)))
    ∧ (payloadOk c = true → (cellDest c ≠ 31 ∨ code = 0x01 ∨ code = 0x08) →
        (31 < (orderHead c).desk ∨ 15 < (orderHead c).key ∨ fieldsInRange i c = false) →
        exec i s = .next (s.refused c .badField (orderBase i c s)))
    ∧ (payloadOk c = true → (cellDest c ≠ 31 ∨ code = 0x08 ∨ code = 0x01) →
        (orderHead c).desk ≤ 31 → (orderHead c).key ≤ 15 → fieldsInRange i c = true →
        (orderHead c).guard = true → s.tb.clock = .unset → code ≠ 0x01 → code ≠ 0x02 → code ≠ 0x08 → code ≠ 0x09 →
        exec i s = .next (s.refused c .clockUnset (orderBase i c s))))
  ∧ ∀ (s : State) (c : List Byte), s.oh.reset = none → s.fri.intake.head? = some c → cellKind c = 1 →
      (orderHead c).code ∉ orderCodes →
      (payloadOk c = false →
        exec .unknownOrder s = .next { s with fri := s.placed (s.replyFor c true .accepted .badCell []) })
      ∧ (payloadOk c = true → exec .unknownOrder s = .next (s.refused c .unknownOrder []))

/-- R190: every order in progress, UNIT RESET apart, is answered by exactly one reply in its own reservation; whatever else
its carrying out queues is a report. -/
def Obligations.EveryOrderIsAnsweredOnce : Prop :=
  ∀ (i : Instr) (code : Nat) (s : State) (c : List Byte), orderCode i = some code → i ≠ .unitReset → s.arrived code c →
    ∃ t l r, exec i s = .next t ∧ (l.all OutMsg.isReport) = true
      ∧ t.fri.queue = s.fri.queue ++ l ++ [.reply r]
      ∧ r.code = code ∧ r.tag = (orderHead c).tag ∧ r.desk = (orderHead c).desk ∧ r.placed = s.tb.runSeconds
      ∧ t.fri.reservations = s.fri.reservations - 1 ∧ t.fri.intake = s.fri.intake.tail

/-! ## Titles and shows (1.2 to 1.4) -/

/-- R8, R9: the title orders, with the show changes of a replaced text (R55, log 13). -/
def Obligations.TitleOrdersFillAndEmptyPlaces : Prop :=
  (∀ (s : State) (c : List Byte) (n : Nat) (text : List Byte), s.passes 0x10 parseTitleLoad c (n, text) →
    ∃ t, exec .titleLoad s = .next t
      ∧ t.titleAt n = some text ∧ (∀ m, m ≠ n → t.titleAt m = s.titleAt m)
      ∧ t.bc = (if (s.titleAt n).isSome = true ∧ s.titleAt n ≠ some text then
          (State.showChanges (s.showsOf n) { s with st := t.st }).bc else s.bc)
      ∧ t.fri = s.replied c .accepted .none
          [.num 1 (if s.titleAt n = none then 0 else 1), .num 7 (s.st.shows.filter fun e => e.2.title = n).length]
      ∧ t = { s with st := { s.st with titles := t.st.titles }, bc := t.bc, fri := t.fri })
  ∧ ∀ (s : State) (c : List Byte) (n : Nat), s.passes 0x11 (parseOne 6 63) c n →
      (s.titleAt n = none → exec .titleClear s = .next (s.refused c .noSuchTitle []))
      ∧ (∀ k rest, s.titleAt n ≠ none → (s.st.shows.filter fun e => e.2.title = n).map Prod.fst = k :: rest →
          exec .titleClear s = .next (s.refused c .titleInUse [.num 7 k]))
      ∧ (s.titleAt n ≠ none → (s.st.shows.filter fun e => e.2.title = n) = [] → ∃ t, exec .titleClear s = .next t
          ∧ t.titleAt n = none ∧ (∀ m, m ≠ n → t.titleAt m = s.titleAt m)
          ∧ t = { s with st := { s.st with titles := t.st.titles }, fri := s.replied c .accepted .none [] })

/-- R20: SHOW LOAD. R21: SHOW PUBLISH. The presence bits before phase and effective start are the model's choice (log 17). -/
def Obligations.ShowLoadAndPublish : Prop :=
  (∀ (s : State) (c : List Byte) (n : Nat) (f : ShowFields), s.passes 0x12 parseShowLoad c (n, f) →
      (∀ x, s.showAt n = some x → x.phase ≠ .draft → exec .showLoad s = .next (s.refused c .wrongPhase (s.showBase n)))
      ∧ ((∀ x, s.showAt n = some x → x.phase = .draft) → 1799 < f.start + f.window →
          exec .showLoad s = .next (s.refused c .badField (s.showBase n)))
      ∧ ((∀ x, s.showAt n = some x → x.phase = .draft) → f.start + f.window ≤ 1799 → ∃ t, exec .showLoad s = .next t
          ∧ t.showAt n = some { auditorium := f.auditorium, title := f.title, start := f.start, delay := 0, doors := f.doors,
                                window := f.window, format := f.format, capacity := f.capacity, few := f.few, band := f.band,
                                phase := .draft, cancelledListed := false, sold := 0, held := 0,
                                avail := if f.capacity ≤ f.few then .few else .opn }
          ∧ (∀ m, m ≠ n → t.showAt m = s.showAt m) ∧ t.bc = s.boardsTold t n
          ∧ t.fri = s.replied c .accepted .none
              [.num 7 n, .num 1 1, .num 3 0, .num 1 1, .num 11 f.start, .num 10 f.capacity, .num 10 0, .num 10 0,
               .num 2 (if f.capacity ≤ f.few then 1 else 0)]
          ∧ t = { s with st := { s.st with shows := t.st.shows }, bc := t.bc, fri := t.fri }))
  ∧ (∀ (s : State) (c : List Byte) (n : Nat), s.passes 0x13 parseShow c n →
      (s.showAt n = none → exec .showPublish s = .next (s.refused c .noSuchShow (s.showBase n)))
      ∧ ∀ x, s.showAt n = some x →
          (x.phase ≠ .draft → exec .showPublish s = .next (s.refused c .wrongPhase (s.showBase n)))
          ∧ (x.phase = .draft → s.titleAt x.title = none → exec .showPublish s = .next (s.refused c .noSuchTitle (s.showBase n)))
          ∧ (x.phase = .draft → s.titleAt x.title ≠ none → ∃ t y, exec .showPublish s = .next t
              ∧ y = (match s.tb.clock with
                  | .unset => { x with phase := .selling }
                  | .running m _ => Show.evaluate { x with phase := .selling } m)
              ∧ t.showAt n = some y ∧ (∀ m, m ≠ n → t.showAt m = s.showAt m) ∧ t.bc = s.boardsTold t n
              ∧ t.paths = { s.paths with endNotices := s.paths.endNotices ++ if y.phase = .ended then [(n, .showEnded)] else [] }
              ∧ t.fri = s.replied c .accepted .none
                  [.num 7 n, .num 1 1, .num 3 y.phase.code, .num 1 1, .num 11 (x.start + x.delay)]
              ∧ t = { s with st := { s.st with shows := t.st.shows }, bc := t.bc, paths := t.paths, fri := t.fri }))

/-- R22, R30: SHOW EDIT, and the table of the fields a phase allows, with the auditorium and start minute of DRAFT alone. R17,
R29: the show changes it sends, one when free or availability has changed and one when a displayed field has. The fields whose
edit evaluates the show do so when they change it (log 27); the presence bits before phase and effective start are the model's
choice (log 17). -/
def Obligations.ShowEditWritesTheNamedFields : Prop :=
  (∀ (s : State) (c : List Byte) (e : ShowEdit), s.passes 0x14 parseShowEdit c e →
      (s.showAt e.showNo = none → exec .showEdit s = .next (s.refused c .noSuchShow (s.showBase e.showNo)))
      ∧ ∀ x, s.showAt e.showNo = some x →
          let y : Show := { x with
            auditorium := e.auditorium.getD x.auditorium, title := e.title.getD x.title, start := e.start.getD x.start,
            doors := e.doors.getD x.doors, window := e.window.getD x.window, format := e.format.getD x.format,
            capacity := e.capacity.getD x.capacity, few := e.few.getD x.few, band := e.band.getD x.band }
          let noTitle : Prop := (x.phase = .selling ∨ x.phase = .seating) ∧ ∃ n, e.title = some n ∧ s.titleAt n = none
          let tooFew : Prop := (x.phase = .selling ∨ x.phase = .seating) ∧ ∃ k, e.capacity = some k ∧ k < x.sold + x.held
          (e.allowed x.phase = false → exec .showEdit s = .next (s.refused c .wrongPhase (s.showBase e.showNo)))
          ∧ (e.allowed x.phase = true → noTitle → exec .showEdit s = .next (s.refused c .noSuchTitle (s.showBase e.showNo)))
          ∧ (e.allowed x.phase = true → ¬ noTitle → 1799 < y.start + y.delay + y.window →
              exec .showEdit s = .next (s.refused c .badField (s.showBase e.showNo)))
          ∧ (e.allowed x.phase = true → ¬ noTitle → y.start + y.delay + y.window ≤ 1799 → tooFew →
              exec .showEdit s = .next (s.refused c .notEnoughSeats (s.showBase e.showNo)))
          ∧ (e.allowed x.phase = true → ¬ noTitle → y.start + y.delay + y.window ≤ 1799 → ¬ tooFew →
              let z : Show :=
                if x.capacity = y.capacity ∧ x.few = y.few ∧ x.band = y.band then y
                else { y with avail := Avail.recompute (y.capacity - y.sold - y.held) y.few y.band x.avail }
              let w : Show := match s.tb.clock with
                | .unset => z
                | .running m _ => if x.doors = y.doors ∧ x.window = y.window then z else z.evaluate m
              let told : BoardComposer :=
                if z.capacity - z.sold - z.held = x.capacity - x.sold - x.held ∧ z.avail = x.avail then s.bc
                else (State.showChange e.showNo (s.setShow e.showNo z)).bc
              ∃ t, exec .showEdit s = .next t ∧ t.showAt e.showNo = some w ∧ (∀ m, m ≠ e.showNo → t.showAt m = s.showAt m)
                ∧ t.paths = { s.paths with
                    endNotices := s.paths.endNotices ++ if w.phase = .ended then [(e.showNo, .showEnded)] else [] }
                ∧ t.fri = s.replied c .accepted .none
                    [.num 7 e.showNo, .num 1 1, .num 3 w.phase.code, .num 1 1, .num 11 (w.start + w.delay),
                     .num 10 (w.capacity - w.sold - w.held), .num 10 w.sold, .num 10 w.held, .num 2 w.avail.code]
                ∧ t.bc = (if w.auditorium = x.auditorium ∧ w.title = x.title ∧ w.start = x.start ∧ w.phase = x.phase
                    ∧ w.format = x.format then told
                  else (State.showChange e.showNo { s with st := t.st, bc := told }).bc)
                ∧ t = { s with st := { s.st with shows := t.st.shows }, bc := t.bc, paths := t.paths, fri := t.fri }))
  ∧ (∀ e : ShowEdit,
      e.allowed .draft = true
      ∧ (∀ p, p = .selling ∨ p = .seating → (e.allowed p = true ↔ e.auditorium = none ∧ e.start = none))
      ∧ (e.allowed .running = true ↔
          e.auditorium = none ∧ e.start = none ∧ e.title = none ∧ e.doors = none ∧ e.capacity = none)
      ∧ e.allowed .ended = false ∧ e.allowed .cancelled = false)

/-- R23. The presence bits before phase and effective start are the model's choice (log 17). -/
def Obligations.ShowDelaySetsTheWholeDelay : Prop :=
  ∀ (s : State) (c : List Byte) (n d : Nat), s.passes 0x15 parseShowDelay c (n, d) →
    (s.showAt n = none → exec .showDelay s = .next (s.refused c .noSuchShow (s.showBase n)))
    ∧ ∀ x, s.showAt n = some x →
        (x.phase ≠ .selling → x.phase ≠ .seating → exec .showDelay s = .next (s.refused c .wrongPhase (s.showBase n)))
        ∧ (x.phase = .selling ∨ x.phase = .seating → 1799 < x.start + d + x.window →
            exec .showDelay s = .next (s.refused c .badField (s.showBase n)))
        ∧ (x.phase = .selling ∨ x.phase = .seating → x.start + d + x.window ≤ 1799 → x.delay = d →
            exec .showDelay s = .next (s.answeredOnly c (s.showBase n)))
        ∧ (x.phase = .selling ∨ x.phase = .seating → x.start + d + x.window ≤ 1799 → x.delay ≠ d →
            ∃ t y, exec .showDelay s = .next t
              ∧ y = (match s.tb.clock with
                  | .unset => { x with delay := d }
                  | .running m _ => Show.evaluate { x with delay := d } m)
              ∧ t.showAt n = some y ∧ (∀ m, m ≠ n → t.showAt m = s.showAt m) ∧ t.bc = s.boardsTold t n
              ∧ t.paths = { s.paths with endNotices := s.paths.endNotices ++ if y.phase = .ended then [(n, .showEnded)] else [] }
              ∧ t.fri = s.replied c .accepted .none
                  [.num 7 n, .num 1 1, .num 3 y.phase.code, .num 1 1, .num 11 (x.start + d)]
              ∧ t = { s with st := { s.st with shows := t.st.shows }, bc := t.bc, paths := t.paths, fri := t.fri })

/-- R24, with the lapse of R43 before the reply, and the show change that every board takes (R17, R55). R25, for a show without an
untaken end notice, and behind one (R44, log 30). The presence bits before phase and effective start are the model's choice (log
17). -/
def Obligations.ShowCancelAndDrop : Prop :=
  (∀ (s : State) (c : List Byte) (n : Nat), s.passes 0x16 parseShow c n →
      (s.showAt n = none → exec .showCancel s = .next (s.refused c .noSuchShow (s.showBase n)))
      ∧ ∀ x, s.showAt n = some x →
          (x.phase = .draft ∨ x.phase = .ended ∨ x.phase = .cancelled →
            exec .showCancel s = .next (s.refused c .wrongPhase (s.showBase n)))
          ∧ (x.phase = .selling ∨ x.phase = .seating ∨ x.phase = .running → s.holdsLaw →
              ∃ t y, exec .showCancel s = .next t
                ∧ y = { x with
                    phase := .cancelled
                    cancelledListed := decide (s.tb.clock.minute < x.start + x.delay + x.window)
                    held := x.held - s.liveSeats n
                    avail := if s.liveHolds n = [] then x.avail
                      else Avail.recompute (x.capacity - x.sold - (x.held - s.liveSeats n)) x.few x.band x.avail }
                ∧ t.showAt n = some y ∧ (∀ m, m ≠ n → t.showAt m = s.showAt m) ∧ t.bc = s.boardsTold t n
                ∧ t.sq.holds.filter (fun h => h.state.isLive)
                    = s.sq.holds.filter (fun h => h.state.isLive && decide (h.showNo ≠ n))
                ∧ s.answered t c .accepted .none
                    [.num 7 n, .num 1 1, .num 3 5, .num 1 1, .num 11 (x.start + x.delay), .num 10 y.sold, .num 10 y.held,
                     .num 10 (y.capacity - y.sold - y.held), .num 2 y.avail.code]
                ∧ (s.full →
                    t.sq.holds = (s.sq.holds.map fun h =>
                      if h.state = .live ∧ h.showNo = n then { h with state := .lapsed .showCancelled s.tb.runSeconds } else h)
                    ∧ t = { s with st := { s.st with shows := t.st.shows }, sq := t.sq, bc := t.bc, fri := t.fri })))
  ∧ (∀ (s : State) (c : List Byte) (n : Nat), s.passes 0x17 parseShow c n → s.behindEndNotice n .showDrop)
  ∧ (∀ (s : State) (c : List Byte) (n : Nat), s.passes 0x17 parseShow c n → s.noEndNotice n →
      (s.showAt n = none → exec .showDrop s = .next (s.refused c .noSuchShow (s.showBase n)))
      ∧ ∀ x, s.showAt n = some x →
          (x.phase = .selling ∨ x.phase = .seating ∨ x.phase = .running →
            exec .showDrop s = .next (s.refused c .wrongPhase (s.showBase n)))
          ∧ (x.phase = .draft ∨ x.phase = .ended ∨ x.phase = .cancelled → ∃ t, exec .showDrop s = .next t
              ∧ t.showAt n = none ∧ (∀ m, m ≠ n → t.showAt m = s.showAt m) ∧ t.bc = s.boardsTold t n
              ∧ t.fri = s.replied c .accepted .none [.num 7 n, .num 1 0, .num 1 0]
              ∧ t = { s with st := { s.st with shows := t.st.shows }, bc := t.bc, fri := t.fri }))

/-- R13: evaluation, and the law of the show phase over every command. -/
def Obligations.ShowPhasesMoveForward : Prop :=
  (∀ (x : Show) (minute : Nat),
    let fitting : Phase :=
      if x.start + x.delay + x.window ≤ minute then .ended
      else if x.start + x.delay ≤ minute then .running
      else if x.start + x.delay - x.doors ≤ minute then .seating
      else .selling
    (x.phase.isOpen = true → x.phase.rank < fitting.rank → x.evaluate minute = { x with phase := fitting })
    ∧ (x.phase.isOpen = true → fitting.rank ≤ x.phase.rank → x.evaluate minute = x)
    ∧ (x.phase.isOpen = false → x.evaluate minute = x))
  ∧ ∀ (c : Instr) (s t : State) (n : Nat) (x : Show), exec c s = .next t → s.showAt n = some x →
      (∀ y, t.showAt n = some y →
        (x.phase.rank ≤ y.phase.rank ∧ (y.phase = .cancelled → x.phase ≠ .draft ∧ x.phase ≠ .ended)
          ∧ (x.phase = .cancelled → y.phase = .cancelled)))
      ∧ (t.showAt n = none → c = .showDrop ∨ c = .resetTakenByOwner .showTable ∨ ∃ straps, c = .powerOn straps)

/-- R26, R39, R40: the read orders of shows and holds, for shows without an untaken end notice, and behind one (R44, log 30).
Which optional fields carry a presence bit, and the 0 seconds left of a LIVE record behind its deadline, are the model's
choices (logs 17 and 31). -/
def Obligations.ShowAndSeatReadsAnswer : Prop :=
  (∀ (s : State) (c : List Byte) (n : Nat), s.passes 0x18 parseShow c n → s.noEndNotice n →
    (s.showAt n = none → exec .showRead s = .next (s.refused c .noSuchShow []))
    ∧ ∀ x, s.showAt n = some x → exec .showRead s = .next (s.answeredOnly c
        ([.num 5 x.auditorium, .num 6 x.title, .num 11 x.start, .num 8 x.delay, .num 11 (x.start + x.delay), .num 6 x.doors,
          .num 6 x.window, .num 4 x.format, .num 10 x.capacity, .num 10 x.few, .num 6 x.band, .num 3 x.phase.code]
          ++ Fld.text 6 ((s.titleAt x.title).getD [])
          ++ [.num 10 x.sold, .num 10 x.held, .num 10 (x.capacity - x.sold - x.held), .num 2 x.avail.code,
              Fld.yes (x.phase.isOpen
                || decide (x.phase = .cancelled ∧ s.tb.clock.minute < x.start + x.delay + x.window)),
              Fld.yes (decide ((x.phase = .selling ∨ x.phase = .seating) ∧ x.avail ≠ .full))])))
  ∧ (∀ (s : State) (c : List Byte) (n : Nat),
    (s.passes 0x18 parseShow c n → s.behindEndNotice n .showRead)
      ∧ (s.passes 0x25 parseShow c n → s.behindEndNotice n .tallyRead))
  ∧ (∀ (s : State) (c : List Byte) (n : Nat), s.passes 0x25 parseShow c n → s.noEndNotice n →
    (s.showAt n = none → exec .tallyRead s = .next (s.refused c .noSuchShow (s.tallyPart none)))
    ∧ ∀ x, s.showAt n = some x → exec .tallyRead s = .next (s.answeredOnly c
        ([.num 7 n, .num 3 x.phase.code, .num 10 x.capacity, .num 10 x.few, .num 6 x.band] ++ s.tallyPart (some n)
          ++ [.num 7 (s.sq.holds.filter fun h => h.state.isLive && decide (h.showNo = n)).length,
              .num 7 (s.sq.holds.filter fun h => !h.state.isLive && decide (h.showNo = n)).length])))
  ∧ ∀ (s : State) (c : List Byte) (k : DeskTag), s.passes 0x26 parseKey c k →
      (s.holdAt k = none → exec .holdRead s = .next (s.refused c .noSuchHold (s.tallyPart none)))
      ∧ (∀ h, s.holdAt k = some h → h.state = .live → s.behindEndNotice h.showNo .holdRead)
      ∧ ∀ h, s.holdAt k = some h →
          (h.state = .live → s.noEndNotice h.showNo → exec .holdRead s = .next (s.answeredOnly c
            ([.num 5 h.key.desk, .num 16 h.key.tag, .num 7 h.showNo, .num 5 h.seats, .num 32 h.deadline, .num 1 0,
              .num 1 1, .num 10 (h.deadline - s.tb.runSeconds), .num 1 0, .num 1 0] ++ s.tallyPart (some h.showNo))))
          ∧ (∀ cause time, h.state = .lapsed cause time → exec .holdRead s = .next (s.answeredOnly c
            ([.num 5 h.key.desk, .num 16 h.key.tag, .num 7 h.showNo, .num 5 h.seats, .num 32 h.deadline, .num 1 1,
              .num 1 0, .num 1 1, .num 2 cause.code, .num 1 1, .num 32 time] ++ s.tallyPart (some h.showNo))))

/-! ## Seats (2.1 to 2.3) -/

/-- R28: availability. -/
def Obligations.AvailabilityFollowsFree : Prop :=
  ∀ (free few band : Nat) (before : Avail),
    (free = 0 → Avail.recompute free few band before = .full)
    ∧ (1 ≤ free → free ≤ few → Avail.recompute free few band before = .few)
    ∧ (1 ≤ free → few + band < free → Avail.recompute free few band before = .opn)
    ∧ (1 ≤ free → few < free → free ≤ few + band →
        Avail.recompute free few band before = if before = .full then .few else before)

/-- R33, R29, for a show without an untaken end notice, and behind one (R44, log 30). -/
def Obligations.SeatHoldSetsSeatsAside : Prop :=
  (∀ (s : State) (c : List Byte) (o : HoldOrder), s.passes 0x20 parseSeatHold c o → s.behindEndNotice o.showNo .seatHold)
  ∧ ∀ (s : State) (c : List Byte) (o : HoldOrder), s.passes 0x20 parseSeatHold c o → s.noEndNotice o.showNo →
    (s.showAt o.showNo = none → exec .seatHold s = .next (s.refused c .noSuchShow (s.tallyPart none)))
    ∧ ∀ x, s.showAt o.showNo = some x →
        let refusal := fun r => exec .seatHold s = .next (s.refused c r (s.tallyPart (some o.showNo)))
        (x.phase.isOpen = false → refusal .wrongPhase)
        ∧ (x.phase.isOpen = true → (∃ h ∈ s.sq.holds, h.key = o.key) → refusal .holdExists)
        ∧ (x.phase.isOpen = true → (∀ h ∈ s.sq.holds, h.key ≠ o.key) → 64 ≤ s.sq.holds.length → refusal .tableFull)
        ∧ (x.phase.isOpen = true → (∀ h ∈ s.sq.holds, h.key ≠ o.key) → s.sq.holds.length < 64 →
            x.capacity - x.sold - x.held < o.seats → refusal .notEnoughSeats)
        ∧ (x.phase.isOpen = true → (∀ h ∈ s.sq.holds, h.key ≠ o.key) → s.sq.holds.length < 64 →
            o.seats ≤ x.capacity - x.sold - x.held →
            let seconds := if o.seconds = 0 then 180 else o.seconds
            let free := x.capacity - x.sold - (x.held + o.seats)
            let avail := Avail.recompute free x.few x.band x.avail
            ∃ t, exec .seatHold s = .next t
              ∧ t.sq.holds = s.sq.holds ++ [{ key := o.key, showNo := o.showNo, seats := o.seats,
                                              deadline := s.tb.runSeconds + seconds, state := .live }]
              ∧ t.showAt o.showNo = some { x with held := x.held + o.seats, avail := avail }
              ∧ (∀ m, m ≠ o.showNo → t.showAt m = s.showAt m)
              ∧ t.bc = (if x.capacity - x.sold - x.held = free ∧ x.avail = avail then s.bc else s.boardsTold t o.showNo)
              ∧ t.fri = s.replied c .accepted .none
                  [.num 5 o.key.desk, .num 16 o.key.tag, .num 5 o.seats, .num 10 seconds,
                   .num 32 (s.tb.runSeconds + seconds), .num 1 1, .num 7 o.showNo, .num 10 free, .num 10 x.sold,
                   .num 10 (x.held + o.seats), .num 2 avail.code]
              ∧ t = { s with st := { s.st with shows := t.st.shows }, sq := t.sq, bc := t.bc, fri := t.fri })

/-- R34, R35, R29, for a hold whose show has no untaken end notice, and behind one (R44, log 30). -/
def Obligations.SeatConfirmAndReleaseEndAHold : Prop :=
  (∀ (s : State) (c : List Byte) (k : DeskTag), s.passes 0x21 parseKey c k →
      (s.holdAt k = none → exec .seatConfirm s = .next (s.refused c .noSuchHold (s.tallyPart none)))
      ∧ (∀ h, s.holdAt k = some h → h.state = .live → s.behindEndNotice h.showNo .seatConfirm)
      ∧ ∀ h x, s.holdAt k = some h → h.state = .live → s.noEndNotice h.showNo → s.showAt h.showNo = some x →
          ∃ t, exec .seatConfirm s = .next t
            ∧ t.sq.holds = s.sq.holds.filter (fun g => decide (g.key ≠ k))
            ∧ t.showAt h.showNo = some { x with sold := x.sold + h.seats, held := x.held - h.seats }
            ∧ (∀ m, m ≠ h.showNo → t.showAt m = s.showAt m)
            ∧ t.fri = s.replied c .accepted .none
                ([.num 5 h.key.desk, .num 16 h.key.tag, .num 7 h.showNo, .num 5 h.seats] ++ t.tallyPart (some h.showNo))
            ∧ t = { s with st := { s.st with shows := t.st.shows }, sq := t.sq, fri := t.fri })
  ∧ (∀ (s : State) (c : List Byte) (k : DeskTag), s.passes 0x22 parseKey c k →
      (s.holdAt k = none → exec .seatRelease s = .next (s.refused c .noSuchHold (s.tallyPart none)))
      ∧ (∀ h, s.holdAt k = some h → h.state = .live → s.behindEndNotice h.showNo .seatRelease)
      ∧ ∀ h x, s.holdAt k = some h → h.state = .live → s.noEndNotice h.showNo → s.showAt h.showNo = some x →
          let free := x.capacity - x.sold - (x.held - h.seats)
          let avail := Avail.recompute free x.few x.band x.avail
          ∃ t, exec .seatRelease s = .next t
            ∧ t.sq.holds = s.sq.holds.filter (fun g => decide (g.key ≠ k))
            ∧ t.showAt h.showNo = some { x with held := x.held - h.seats, avail := avail }
            ∧ (∀ m, m ≠ h.showNo → t.showAt m = s.showAt m)
            ∧ t.bc = (if x.capacity - x.sold - x.held = free ∧ x.avail = avail then s.bc else s.boardsTold t h.showNo)
            ∧ t.fri = s.replied c .accepted .none
                ([.num 5 h.key.desk, .num 16 h.key.tag, .num 7 h.showNo, .num 5 h.seats] ++ t.tallyPart (some h.showNo))
            ∧ t = { s with st := { s.st with shows := t.st.shows }, sq := t.sq, bc := t.bc, fri := t.fri })

/-- R36: a SEAT CONFIRM or SEAT RELEASE that finds a LAPSED record collects it. The record is its own waiting HOLD_LAPSED
claim (R45), so the claim goes with it. -/
def Obligations.LapsedHoldIsCollectedOnce : Prop :=
  ∀ (s : State) (c : List Byte) (k : DeskTag) (h : Hold) (cause : LapseCause) (time : Nat),
    s.holdAt k = some h → h.state = .lapsed cause time →
    let t : State := { s with
      sq := { holds := s.sq.holds.filter fun g => decide (g.key ≠ k) },
      fri := s.replied c .accepted .holdLapsed
        ([.num 5 h.key.desk, .num 16 h.key.tag, .num 7 h.showNo, .num 5 h.seats, .num 2 cause.code, .num 32 time]
          ++ s.tallyPart (some h.showNo)) }
    (s.passes 0x21 parseKey c k → exec .seatConfirm s = .next t)
    ∧ (s.passes 0x22 parseKey c k → exec .seatRelease s = .next t)
    ∧ (t.holdAt k = none ∧ ∀ n, t.showAt n = s.showAt n)

/-- R37, R38, R29, for a show without an untaken end notice, and behind one (R44, log 30). -/
def Obligations.SeatsAreSoldAndRefunded : Prop :=
  (∀ (s : State) (c : List Byte) (n k : Nat),
      (s.passes 0x23 parseSeats c (n, k) → s.behindEndNotice n .seatSell)
      ∧ (s.passes 0x24 parseSeats c (n, k) → s.behindEndNotice n .seatRefund))
  ∧ ∀ (s : State) (c : List Byte) (n k : Nat), s.noEndNotice n →
    (s.passes 0x23 parseSeats c (n, k) →
      (s.showAt n = none → exec .seatSell s = .next (s.refused c .noSuchShow (s.tallyPart none)))
      ∧ ∀ x, s.showAt n = some x →
          (x.phase.isOpen = false → exec .seatSell s = .next (s.refused c .wrongPhase (s.tallyPart (some n))))
          ∧ (x.phase.isOpen = true → x.capacity - x.sold - x.held < k →
              exec .seatSell s = .next (s.refused c .notEnoughSeats (s.tallyPart (some n))))
          ∧ (x.phase.isOpen = true → k ≤ x.capacity - x.sold - x.held →
              let free := x.capacity - (x.sold + k) - x.held
              let avail := Avail.recompute free x.few x.band x.avail
              ∃ t, exec .seatSell s = .next t
                ∧ t.showAt n = some { x with sold := x.sold + k, avail := avail } ∧ (∀ m, m ≠ n → t.showAt m = s.showAt m)
                ∧ t.bc = (if x.capacity - x.sold - x.held = free ∧ x.avail = avail then s.bc else s.boardsTold t n)
                ∧ t.fri = s.replied c .accepted .none
                    [.num 7 n, .num 5 k, .num 1 1, .num 7 n, .num 10 free, .num 10 (x.sold + k), .num 10 x.held,
                     .num 2 avail.code]
                ∧ t = { s with st := { s.st with shows := t.st.shows }, bc := t.bc, fri := t.fri }))
    ∧ (s.passes 0x24 parseSeats c (n, k) →
      (s.showAt n = none → exec .seatRefund s = .next (s.refused c .noSuchShow (s.tallyPart none)))
      ∧ ∀ x, s.showAt n = some x →
          (x.phase.isOpen = false → x.phase ≠ .cancelled →
            exec .seatRefund s = .next (s.refused c .wrongPhase (s.tallyPart (some n))))
          ∧ (x.phase.isOpen = true ∨ x.phase = .cancelled → x.sold < k →
              exec .seatRefund s = .next (s.refused c .notEnoughSeats (s.tallyPart (some n))))
          ∧ (x.phase.isOpen = true ∨ x.phase = .cancelled → k ≤ x.sold →
              let free := x.capacity - (x.sold - k) - x.held
              let avail := Avail.recompute free x.few x.band x.avail
              ∃ t, exec .seatRefund s = .next t
                ∧ t.showAt n = some { x with sold := x.sold - k, avail := avail } ∧ (∀ m, m ≠ n → t.showAt m = s.showAt m)
                ∧ t.bc = (if x.capacity - x.sold - x.held = free ∧ x.avail = avail then s.bc else s.boardsTold t n)
                ∧ t.fri = s.replied c .accepted .none
                    [.num 7 n, .num 5 k, .num 1 1, .num 7 n, .num 10 free, .num 10 (x.sold - k), .num 10 x.held,
                     .num 2 avail.code]
                ∧ t = { s with st := { s.st with shows := t.st.shows }, bc := t.bc, fri := t.fri }))

/-! ## Boards (chapter 3) -/

/-- R51, R52: what stands on the rows of a board, in what order, and what is left out. Listing (R15) is the record's own
phase, or the result of its last listing test (log 12). R54, R55: what a show change does to every board, and that it touches
nothing else. -/
def Obligations.RowListsFollowShowChanges : Prop :=
  (∀ (b : Board) (shows : Tbl Show), Tbl.wf shows = true →
      let fits := fun x : Show =>
        (x.phase.isOpen = true ∨ (x.phase = .cancelled ∧ x.cancelledListed = true ∧ b.cancelledShown = true))
          ∧ b.filter.getLsbD (x.auditorium - 1) = true
          ∧ (b.window = 0 ∨ ∀ m, b.windowMinute = some m → x.start + x.delay ≤ m + b.window)
      let before := fun (m : Nat) (x : Show) (n : Nat) (y : Show) =>
        x.start + x.delay < y.start + y.delay
          ∨ (x.start + x.delay = y.start + y.delay ∧ (x.auditorium < y.auditorium ∨ (x.auditorium = y.auditorium ∧ m < n)))
      (b.rowsFor shows).length = b.rows
      ∧ (∀ i n : Nat, (b.rowsFor shows)[i]? = some (some n) → ∃ x, Tbl.get shows n = some x ∧ fits x)
      ∧ (∀ (i j m n : Nat) (x y : Show), i < j → (b.rowsFor shows)[i]? = some (some m) → (b.rowsFor shows)[j]? = some (some n) →
          Tbl.get shows m = some x → Tbl.get shows n = some y → before m x n y)
      ∧ (∀ i j n : Nat, i < j → (b.rowsFor shows)[j]? = some (some n) → (b.rowsFor shows)[i]? ≠ some none)
      ∧ (∀ n x, Tbl.get shows n = some x → fits x → (∀ i : Nat, (b.rowsFor shows)[i]? ≠ some (some n)) →
          ∀ i, i < b.rows → ∃ m y, (b.rowsFor shows)[i]? = some (some m) ∧ Tbl.get shows m = some y ∧ before m y n x))
  ∧ (∀ (s : State) (n : Nat),
      (∀ p, (s.showChange n).board p
          = { s.board p with rowList := (s.board p).rowsFor s.st.shows, pendingRows := ((s.showChange n).board p).pendingRows })
      ∧ (∀ p i, i < 16 → (((s.showChange n).board p).pendingRows.getLsbD i = true ↔
          (s.board p).pendingRows.getLsbD i = true
            ∨ (i < (s.board p).rows
                ∧ (((s.board p).rowList[i]?).getD none ≠ (((s.board p).rowsFor s.st.shows)[i]?).getD none
                    ∨ ((s.board p).rowsFor s.st.shows)[i]? = some (some n)))))
      ∧ s.showChange n = { s with bc := (s.showChange n).bc })

/-- R63, R64, R65: the board orders. The presence bits of BOARD READ's window minute and rows, and that the bit 1 is "on" of
cancelled shown, are the model's choices (log 17). -/
def Obligations.BoardOrdersSetRepaintAndRead : Prop :=
  (∀ (s : State) (c : List Byte) (o : BoardOrder), s.passes 0x30 parseBoardSet c o → ∃ t, exec .boardSet s = .next t
    ∧ t.board o.port = { rows := o.rows, filter := o.filter, window := o.window, cancelledShown := o.cancelledShown,
                         windowMinute := (s.board o.port).windowMinute,
                         rowList := (t.board o.port).rowsFor s.st.shows,
                         pendingRows := (t.board o.port).pendingRows }
    ∧ (∀ i, i < 16 → ((t.board o.port).pendingRows.getLsbD i = true ↔ i < o.rows))
    ∧ (∀ q, q ≠ o.port → t.board q = s.board q)
    ∧ t.fri = s.replied c .accepted .none
        [.num 4 o.port.val, .num 5 o.rows, .num 24 o.filter.reverse.toNat, .num 11 o.window, Fld.yes o.cancelledShown,
         .num 7 (s.st.shows.filter fun e => (t.board o.port).qualifies e.2).length,
         .num 5 ((t.board o.port).rowList.filter Option.isSome).length]
    ∧ t = { s with bc := t.bc, fri := t.fri })
  ∧ (∀ (s : State) (c : List Byte) (p : Port), s.passes 0x31 parsePort c p → (s.board p).rows ≤ 16 →
    ∃ t, exec .boardRepaint s = .next t
      ∧ t.board p = { s.board p with pendingRows := (t.board p).pendingRows }
      ∧ (∀ i, (t.board p).pendingRows.getLsbD i = true ↔ i < (s.board p).rows)
      ∧ (∀ q, q ≠ p → t.board q = s.board q)
      ∧ t = { s with bc := t.bc, fri := s.replied c .accepted .none [.num 4 p.val, .num 5 (s.board p).rows] })
  ∧ ∀ (s : State) (c : List Byte) (p : Port), s.passes 0x32 parsePort c p →
      exec .boardRead s = .next (s.answeredOnly c
        ([.num 5 (s.board p).rows, .num 24 (s.board p).filter.reverse.toNat, .num 11 (s.board p).window,
          Fld.yes (s.board p).cancelledShown]
          ++ Fld.opt 11 (s.board p).windowMinute ++ ((s.board p).rowList.map (Fld.opt 7)).flatten
          ++ ((List.range (s.board p).rows).map fun i => Fld.yes ((s.board p).pendingRows.getLsbD i))
          ++ [.num 7 (s.st.shows.filter fun e => (s.board p).qualifies e.2).length]))

/-! ## Segments (chapter 4) -/

/-- R73, R84: SEGMENT DEFINE. R72, R73: the overlap that it finds is the lowest segment whose reserved pages meet the pages
asked for. The presence bits of its optional fields are the model's choice (log 17). -/
def Obligations.SegmentDefineReservesPages : Prop :=
  (∀ (s : State) (c : List Byte) (o : DefineOrder), s.passes 0x40 parseDefine c o →
      let pages := (o.length + 63) / 64
      let keyOk : Prop := (orderHead c).key = 0 ∨ (orderHead c).key = o.key
      (∀ g, s.segAt o.segment = some g → exec .segmentDefine s = .next (s.refused c .segmentState
        ([.num 10 o.segment, .num 2 g.state.code] ++ if g.state = .loading then [.num 1 1, .num 21 g.fill] else [.num 1 0])))
      ∧ (s.segAt o.segment = none → ¬ keyOk →
          exec .segmentDefine s = .next (s.refused c .keyMismatch [.num 10 o.segment, .num 2 0]))
      ∧ (s.segAt o.segment = none → keyOk → 262144 < o.firstPage + pages →
          exec .segmentDefine s = .next (s.refused c .outOfRange [.num 10 o.segment, .num 2 0, .num 15 pages]))
      ∧ (∀ n, s.segAt o.segment = none → keyOk → o.firstPage + pages ≤ 262144 → s.overlap o.firstPage pages = some n →
          exec .segmentDefine s = .next (s.refused c .pageOverlap [.num 10 o.segment, .num 2 0, .num 10 n]))
      ∧ (s.segAt o.segment = none → keyOk → o.firstPage + pages ≤ 262144 → s.overlap o.firstPage pages = none →
          ∃ t, exec .segmentDefine s = .next t
            ∧ t.segAt o.segment = some { state := .loading, firstPage := o.firstPage, length := o.length, key := o.key, fill := 0,
                                         check := 0, pins := 0 }
            ∧ t.freedAt o.segment = none
            ∧ (∀ m, m ≠ o.segment → t.segAt m = s.segAt m ∧ t.freedAt m = s.freedAt m)
            ∧ t.fri = s.replied c .accepted .none
                ([.num 10 o.segment, .num 2 1] ++ Fld.opt 32 ((s.freedAt o.segment).map FreedClaim.runSecond)
                  ++ [.num 18 o.firstPage, .num 15 pages, .num 18 (o.firstPage + pages - 1)])
            ∧ t = { s with sg := { s.sg with segs := t.sg.segs }, fri := t.fri }))
  ∧ (∀ (s : State) (p k : Nat), Tbl.wf s.sg.segs = true →
      (∀ n, s.overlap p k = some n → ∃ g, s.segAt n = some g ∧ p < g.firstPage + (g.length + 63) / 64 ∧ g.firstPage < p + k
        ∧ ∀ m f, m < n → s.segAt m = some f → f.firstPage + (f.length + 63) / 64 ≤ p ∨ p + k ≤ f.firstPage)
      ∧ (s.overlap p k = none → ∀ m f, s.segAt m = some f → f.firstPage + (f.length + 63) / 64 ≤ p ∨ p + k ≤ f.firstPage))

/-- R77, R78, R79: the orders that finish, retire and read a segment. Which fields of the replies to FINISH and READ carry a
presence bit, and that an EMPTY record has no fill mark, length and load check to carry, are the model's choices (log 17). -/
def Obligations.SegmentsFinishRetireAndRead : Prop :=
  ∀ (s : State) (c : List Byte) (n : Nat),
    (s.passes 0x41 parseSegment c n →
      (s.segAt n = none →
        exec .segmentFinish s = .next (s.refused c .segmentState [.num 10 n, .num 2 0, .num 1 0, .num 1 0, .num 1 0]))
      ∧ ∀ g, s.segAt n = some g →
          let marks : List Fld := [.num 1 1, .num 21 g.fill, .num 1 1, .num 21 g.length, .num 1 1, .num 32 g.check.toNat]
          let keyOk : Prop := (orderHead c).key = 0 ∨ (orderHead c).key = g.key
          let refusal := fun r => exec .segmentFinish s = .next (s.refused c r ([.num 10 n, .num 2 g.state.code] ++ marks))
          (g.state ≠ .loading → refusal .segmentState)
          ∧ (g.state = .loading → ¬ keyOk → refusal .keyMismatch)
          ∧ (g.state = .loading → keyOk → g.fill < g.length → refusal .segmentState)
          ∧ (g.state = .loading → keyOk → g.length ≤ g.fill → ∃ t, exec .segmentFinish s = .next t
              ∧ t.segAt n = some { g with state := .ready } ∧ (∀ m, m ≠ n → t.segAt m = s.segAt m ∧ t.freedAt m = s.freedAt m)
              ∧ t = { s with sg := { s.sg with segs := t.sg.segs },
                             fri := s.replied c .accepted .none ([.num 10 n, .num 2 2] ++ marks) }))
    ∧ (s.passes 0x42 parseSegment c n →
      (s.segAt n = none → exec .segmentRetire s = .next (s.refused c .segmentState [.num 10 n, .num 2 0]))
      ∧ ∀ g, s.segAt n = some g →
          let keyOk : Prop := (orderHead c).key = 0 ∨ (orderHead c).key = g.key
          (g.state = .retiring → exec .segmentRetire s = .next (s.refused c .segmentState [.num 10 n, .num 2 3]))
          ∧ (g.state ≠ .retiring → ¬ keyOk →
              exec .segmentRetire s = .next (s.refused c .keyMismatch [.num 10 n, .num 2 g.state.code]))
          ∧ (g.state ≠ .retiring → keyOk → ∃ t, exec .segmentRetire s = .next t
              ∧ t.segAt n = (if g.state = .ready ∧ 0 < g.pins then some { g with state := .retiring } else none)
              ∧ t.freedAt n = none ∧ (∀ m, m ≠ n → t.segAt m = s.segAt m ∧ t.freedAt m = s.freedAt m)
              ∧ t.fri = s.replied c .accepted .none
                  [.num 10 n, .num 2 (if g.state = .ready ∧ 0 < g.pins then 3 else 0), .num 6 g.pins]
              ∧ t = { s with sg := { s.sg with segs := t.sg.segs }, fri := t.fri }))
    ∧ (s.passes 0x43 parseSegment c n →
      (s.segAt n = none → exec .segmentRead s = .next (s.answeredOnly c
        ([.num 10 n, .num 2 0] ++ Fld.opt 32 ((s.freedAt n).map FreedClaim.runSecond))))
      ∧ ∀ g, s.segAt n = some g →
          ((orderHead c).key = 0 ∨ (orderHead c).key = g.key → exec .segmentRead s = .next (s.answeredOnly c
            [.num 10 n, .num 2 g.state.code, .num 18 g.firstPage, .num 21 g.length, .num 15 ((g.length + 63) / 64), .num 4 g.key,
             .num 21 g.fill, .num 32 g.check.toNat, .num 6 g.pins]))
          ∧ ((orderHead c).key ≠ 0 → (orderHead c).key ≠ g.key →
              exec .segmentRead s = .next (s.refused c .keyMismatch [.num 10 n, .num 2 g.state.code])))

/-- R74, R75, R76: a LOAD cell in progress. That the code, tag and desk of a BAD_CELL refusal are 0, as 10.2 has them, and not bytes
0 to 3 of the damaged payload (R199), is the model's choice (log 28), and so are the presence bits before the state and the fill
mark (log 17). -/
def Obligations.LoadCellsFillASegment : Prop :=
  ∀ (s : State) (c : List Byte), s.oh.reset = none → s.fri.intake.head? = some c → cellKind c = 2 → c.length = 80 →
    let n := cellSegment c
    let i := cellIndex c
    let state : List Fld :=
      if 1023 < n then [.num 1 0] else [.num 1 1, .num 2 (match s.segAt n with | some g => g.state.code | none => 0)]
    let fill : List Fld := match s.segAt n with | some g => [.num 1 1, .num 21 g.fill] | none => [.num 1 0]
    let reply := fun r : Reason =>
      ({ code := 0, tag := 0, desk := 0, unchecked := decide (r = .badCell), outcome := .accepted, reason := r,
         placed := s.tb.runSeconds, body := [.num 10 n, .num 20 i] ++ state ++ fill } : Reply)
    let refusal := fun r => exec .load s = .next { s with fri := s.placed (reply r) }
    let taken : FeedRing := { s.fri with reservations := s.fri.reservations - 1, intake := s.fri.intake.tail }
    let inRange : Prop := n ≤ 1023 ∧ i ≤ 1048575 ∧ cellKey c ≤ 15
    (payloadOk c = false → refusal .badCell)
    ∧ (payloadOk c = true → ¬ inRange → refusal .badField)
    ∧ (payloadOk c = true → inRange → (∀ g, s.segAt n = some g → g.state ≠ .loading) → refusal .segmentState)
    ∧ ∀ g, payloadOk c = true → inRange → s.segAt n = some g → g.state = .loading →
        let keyOk : Prop := cellKey c = 0 ∨ cellKey c = g.key
        (¬ keyOk → refusal .keyMismatch)
        ∧ (keyOk → g.length ≤ i → refusal .outOfRange)
        ∧ (keyOk → i < g.length → g.fill < i → refusal .gap)
        ∧ (keyOk → i < g.length → i < g.fill → exec .load s = .next { s with fri := taken })
        ∧ (keyOk → i < g.length → i = g.fill → ∃ t, exec .load s = .next t
            ∧ t.segAt n = some { g with fill := g.fill + 1, check := g.check + payloadSum (cellPayload c) }
            ∧ (∀ m, m ≠ n → t.segAt m = s.segAt m ∧ t.freedAt m = s.freedAt m)
            ∧ (∀ k, k < 64 → Memory.read t.sg.content ((g.firstPage * 64 + i) * 64 + k) = some ((cellPayload c).getD k 0))
            ∧ (∀ a, a < (g.firstPage * 64 + i) * 64 ∨ (g.firstPage * 64 + i) * 64 + 64 ≤ a →
                Memory.read t.sg.content a = Memory.read s.sg.content a)
            ∧ t = { s with sg := t.sg, fri := taken })

/-- R80, R81, R82, R85: the answer to a pin request, what a granted pin counts, and what a release does, the release of the
last pin of a RETIRING segment among it. -/
def Obligations.PinsAreGrantedAndReleased : Prop :=
  ∀ (s : State) (n key offset count : Nat),
    (s.taken .segmentTable → s.pinAnswer n key offset count = .notReady ∧ State.releasePin n s = s)
    ∧ (¬ s.taken .segmentTable → s.segAt n = none → s.pinAnswer n key offset count = .notReady ∧ State.releasePin n s = s)
    ∧ ∀ g, ¬ s.taken .segmentTable → s.segAt n = some g →
        (g.state ≠ .ready ∨ g.length < offset + count → s.pinAnswer n key offset count = .notReady)
        ∧ (g.state = .ready → offset + count ≤ g.length → (key = 0 ∨ key = g.key) →
            s.pinAnswer n key offset count = .granted
              ∧ (State.addPin n s).segAt n = some { g with pins := g.pins + 1 }
              ∧ ∀ m, m ≠ n → (State.addPin n s).segAt m = s.segAt m)
        ∧ (g.state = .ready → offset + count ≤ g.length → key ≠ 0 → key ≠ g.key →
            s.pinAnswer n key offset count = .keyMismatch)
        ∧ (g.state ≠ .retiring ∨ 1 < g.pins → (State.releasePin n s).segAt n = some { g with pins := g.pins - 1 }
            ∧ (∀ m, m ≠ n → (State.releasePin n s).segAt m = s.segAt m) ∧ (State.releasePin n s).fri = s.fri)
        ∧ (g.state = .retiring → g.pins = 1 → (State.releasePin n s).segAt n = none
            ∧ (∀ m, m ≠ n → (State.releasePin n s).segAt m = s.segAt m)
            ∧ (s.full → (State.releasePin n s).freedAt n = some { runSecond := s.tb.runSeconds, firstPage := g.firstPage,
                                                                  pages := (g.length + 63) / 64, key := g.key }))

/-! ## Reels (chapter 5) -/

/-- R90, R91, R92: the orders on the reel table. -/
def Obligations.ReelTableOrders : Prop :=
  (∀ (s : State) (c : List Byte) (o : ReelOrder), s.passes 0x50 parseReelWrite c o →
    let r := s.reelAt o.reel
    let k := o.words.length
    let hole : Prop := (k ≠ 0 ∧ (32 < o.first + k ∨ o.newLength < o.first + k ∨ max r.words.length (o.first + k) < o.newLength))
      ∨ (k = 0 ∧ r.words.length < o.newLength)
    (0 < r.binding → exec .reelWrite s = .next (s.refused c .reelBound [.num 4 r.binding]))
    ∧ (r.binding = 0 → k ≠ 0 → r.words.length < o.first →
        exec .reelWrite s = .next (s.refused c .gap [.num 6 r.words.length]))
    ∧ (r.binding = 0 → (k = 0 ∨ o.first ≤ r.words.length) → hole → exec .reelWrite s = .next (s.refused c .badField []))
    ∧ (r.binding = 0 → (k = 0 ∨ o.first ≤ r.words.length) → ¬ hole → ∃ t, exec .reelWrite s = .next t
        ∧ (t.reelAt o.reel).words.length = o.newLength ∧ (t.reelAt o.reel).binding = 0
        ∧ (∀ i, i < o.newLength → (t.reelAt o.reel).words[i]? =
            if o.first ≤ i ∧ i < o.first + k then o.words[i - o.first]? else r.words[i]?)
        ∧ (∀ m, m ≠ o.reel → t.reelAt m = s.reelAt m)
        ∧ t = { s with rl := t.rl, fri := s.replied c .accepted .none [.num 5 o.reel, .num 6 o.newLength] }))
  ∧ (∀ (s : State) (c : List Byte) (n : Nat), s.passes 0x51 (parseOne 5 31) c n →
    (0 < (s.reelAt n).binding → exec .reelClear s = .next (s.refused c .reelBound [.num 4 (s.reelAt n).binding]))
    ∧ ((s.reelAt n).binding = 0 → ∃ t, exec .reelClear s = .next t
        ∧ t.reelAt n = { words := [], binding := 0 } ∧ (∀ m, m ≠ n → t.reelAt m = s.reelAt m)
        ∧ t = { s with rl := t.rl, fri := s.replied c .accepted .none [.num 5 n, .num 6 (s.reelAt n).words.length] }))
  ∧ ∀ (s : State) (c : List Byte) (n i : Nat), s.passes 0x52 parseReelRead c (n, i) →
      exec .reelRead s = .next (s.answeredOnly c
        ([.num 5 n, .num 6 (s.reelAt n).words.length, .num 4 (s.reelAt n).binding,
          Fld.ports (PortSet.ofPred fun p => (s.run? p).any fun r => decide (r.reel = n)), .align]
          ++ ((((s.reelAt n).words.drop i).take 4).map Fld.reelWord).flatten))

/-- R99, R100: what the search for the next word finds: the first eligible word in the order of the candidates, with the
boundary it crossed, or the end marker; that a search that has crossed goes on past a current word with LOOP to the words behind it
is the model's choice (log 38). R98, R101: the prefetch, at residual 8 or fewer with an empty slot: what it puts into the
slot by the answer to the found word's pin request, and the pin of a good word. -/
def Obligations.SearchFindsTheNextEligibleWord : Prop :=
  (∀ (s : State) (r : Run),
    let words := (s.reelAt r.reel).words
    let first := if r.cur.loop then words.length else r.curIndex + 1
    let plays := fun (i : Nat) => ∃ w, words[i]? = some w ∧ w.skip = false
      ∧ ∀ n, w.gate = some n → ∃ x, s.showAt n = some x ∧ (x.phase = .selling ∨ x.phase = .seating) ∧ x.avail ≠ .full
    r.curIndex < words.length →
    (∀ i, first ≤ i → plays i → (∀ j, first ≤ j → j < i → ¬ plays j) →
      ∃ w, words[i]? = some w ∧ s.searchNext r = .word i w false)
    ∧ ((∀ j, first ≤ j → ¬ plays j) → r.repeatLeft = 1 → s.searchNext r = .marker .ended)
    ∧ (∀ i, (∀ j, first ≤ j → ¬ plays j) → r.repeatLeft ≠ 1 → i + (words.length - first) < words.length → plays i →
        (∀ j, j < i → ¬ plays j) → ∃ w, words[i]? = some w ∧ s.searchNext r = .word i w true)
    ∧ ((∀ j, ¬ plays j) → r.repeatLeft ≠ 1 → s.searchNext r = .marker .allPassed))
  ∧ ∀ (s : State) (p : Port),
      (s.run? p = none → State.prefetch p s = s)
      ∧ ∀ r, s.ctx p = .running r →
          let fills := fun slot : Prefetch => s.setCtx p (.running { r with slot := slot })
          (8 < r.residual ∨ r.slot ≠ .empty → State.prefetch p s = s)
          ∧ (r.residual ≤ 8 → r.slot = .empty →
              (∀ reason, s.searchNext r = .marker reason →
                State.prefetch p s = fills (.marker reason) ∧ s.prefetched r = .marker reason)
              ∧ ∀ i w crossed, s.searchNext r = .word i w crossed →
                  (s.pinAnswer w.segment r.key w.offset w.count = .granted →
                    State.prefetch p s = State.addPin w.segment (fills (.good i w crossed))
                      ∧ s.prefetched r = .good i w crossed)
                  ∧ (s.pinAnswer w.segment r.key w.offset w.count = .notReady →
                    State.prefetch p s = fills (.deferred i .segmentNotReady)
                      ∧ s.prefetched r = .deferred i .segmentNotReady)
                  ∧ (s.pinAnswer w.segment r.key w.offset w.count = .keyMismatch →
                    State.prefetch p s = fills (.deferred i .keyMismatch) ∧ s.prefetched r = .deferred i .keyMismatch))

/-- R94, R95, R96, R100: REEL START; R98, R101: a first word of 8 cells or fewer is followed by its prefetch at once. R153: the start
closes an open live picture: the live buffer is flushed and the live gap turns on. R109, R113: the fields of a status record and of a
run's progress, their widths, presence bits and the bit of the halting flag by log 17. -/
def Obligations.ReelStartBeginsARun : Prop :=
  ∀ (s : State) (c : List Byte) (o : StartOrder), s.passes 0x53 parseReelStart c o →
    let p := o.port
    let st := (s.port p).state
    let words := (s.reelAt o.reel).words
    let open_ : Prop := st = .linking ∨ st = .ready ∨ st = .held
    let plays := fun (w : ReelWord) => w.skip = false
      ∧ ∀ n, w.gate = some n → ∃ x, s.showAt n = some x ∧ (x.phase = .selling ∨ x.phase = .seating) ∧ x.avail ≠ .full
    let recordFields := fun (x : StatusRecord) => (
      [.num 4 x.port.val, .num 5 x.reel, .num 16 x.tag,
        .num 3 (match x.reason with
          | .ended => 0 | .halted => 1 | .allPassed => 2 | .segmentNotReady => 3 | .keyMismatch => 4 | .portStalled => 5
          | .portReset => 6)]
        ++ Fld.opt 5 x.lastWord ++ [.num 16 x.residual, .num 16 x.passes] ++ Fld.opt 5 x.failedWord ++ Fld.opt 5 x.lostMark
        ++ [.num 32 x.endTime] : List Fld)
    let progress := fun (r : Run) => (
      [.num 2 (if r.suspended then 2 else 1), .num 1 (if r.halting then 1 else 0), .num 5 r.reel, .num 16 r.tag, .num 4 r.key,
       .num 5 r.curIndex, .num 16 r.residual, .num 16 r.passes, .num 8 r.repeatLeft]
        ++ (match r.slot with
          | .empty => [.num 2 0]
          | .good i _ _ => [.num 2 1, .num 5 i]
          | .deferred i .segmentNotReady => [.num 2 2, .num 5 i, .num 3 3]
          | .deferred i .keyMismatch => [.num 2 2, .num 5 i, .num 3 4]
          | .marker .ended => [.num 2 3, .num 2 0]
          | .marker .allPassed => [.num 2 3, .num 2 2])
        ++ [.num 1 (if r.mark = none then 0 else 1)] : List Fld)
    let status := fun (r : StatusRecord) => s.replied c .status .none (recordFields r)
    let failed := fun (reason : EndReason) (word : Option Nat) =>
      ({ port := p, reel := o.reel, tag := o.tag, reason := reason, lastWord := none, residual := 0, passes := 0,
         failedWord := word, lostMark := none, endTime := s.tb.runSeconds } : StatusRecord)
    (¬ open_ → exec .reelStart s = .next { s with fri := s.replied c .unavailable .portState [.num 3 st.code] })
    ∧ (∀ r, open_ → s.ctx p = .running r → exec .reelStart s = .next { s with fri := s.replied c .busy .none (progress r) })
    ∧ (∀ r, open_ → s.ctx p = .statusPending r → ∃ t, exec .reelStart s = .next t
        ∧ t.ctx p = .idle ∧ (∀ q, q ≠ p → t.ctx q = s.ctx q) ∧ t = { s with pc := t.pc, fri := status r })
    ∧ (open_ → s.ctx p = .idle → words = [] → exec .reelStart s = .next (s.refused c .reelEmpty []))
    ∧ (open_ → s.ctx p = .idle → words ≠ [] → (∀ w ∈ words, ¬ plays w) →
        exec .reelStart s = .next { s with fri := status (failed .allPassed none) })
    ∧ ∀ (i : Nat) (w : ReelWord), open_ → s.ctx p = .idle → words[i]? = some w → plays w →
        (∀ (j : Nat) v, j < i → words[j]? = some v → ¬ plays v) →
        (s.pinAnswer w.segment o.key w.offset w.count = .notReady →
          exec .reelStart s = .next { s with fri := status (failed .segmentNotReady (some i)) })
        ∧ (s.pinAnswer w.segment o.key w.offset w.count = .keyMismatch →
          exec .reelStart s = .next { s with fri := status (failed .keyMismatch (some i)) })
        ∧ (s.pinAnswer w.segment o.key w.offset w.count = .granted →
            let pictureOpen : Prop :=
              (st = .ready ∨ st = .held) ∧ (s.port p).settings.mode = .live ∧ (s.slot p).takeover = false
            let idle := !(decide ((s.port p).settings.mode = .live) && !(s.slot p).takeover)
            ∃ (t : State) (r : Run), exec .reelStart s = .next t
              ∧ t.ctx p = .running { suspended := idle, reel := o.reel, key := o.key, repeatLeft := o.repeats, passes := 0,
                                     tag := o.tag, curIndex := i, cur := w, residual := w.count, slot := r.slot,
                                     cutDue := true, halting := false, mark := r.mark }
              ∧ (8 < w.count → r.slot = .empty) ∧ (w.count ≤ 8 → r.slot ≠ .empty)
              ∧ (∀ u, t.ctx p = .running u → w.count ≤ 8 → u.slot = s.prefetched u)
              ∧ (w.mark = false → r.mark = none)
              ∧ (w.mark = true → s.full →
                  r.mark = some { wordIndex := i, passes := 0, runSecond := s.tb.runSeconds, overrun := 0 })
              ∧ (pictureOpen → (t.port p).live = [] ∧ (t.port p).liveGap = true)
              ∧ (¬ pictureOpen → (t.port p).live = (s.port p).live ∧ (t.port p).liveGap = (s.port p).liveGap)
              ∧ (t.reelAt o.reel) = { s.reelAt o.reel with binding := (s.reelAt o.reel).binding + 1 }
              ∧ (∀ m, m ≠ o.reel → t.reelAt m = s.reelAt m)
              ∧ (∀ n, t.pinsOf n = s.pinsOf n + (if w.segment = n then 1 else 0) + (if r.slot.pinned = some n then 1 else 0))
              ∧ s.answered t c .accepted .none [.num 4 p.val, .num 5 o.reel, .num 16 o.tag, .num 5 i,
                  .num 2 (if idle then 2 else 1)]
              ∧ (s.full → (∀ q, q ≠ p → t.ctx q = s.ctx q)
                  ∧ t.port p = { s.port p with live := (t.port p).live, liveGap := (t.port p).liveGap }
                  ∧ (∀ q, q ≠ p → t.port q = s.port q)
                  ∧ t = { s with pc := t.pc, rl := t.rl, sg := { s.sg with segs := t.sg.segs }, pp := t.pp, fri := t.fri }))

/-- R94, R111, R112, R113: REEL HALT and REEL TEST. R199 item 4: whether the run has ended stands
behind a presence bit, 0 for an IDLE context. Its one bit, 1 where the run has ended, and 1 for "on" of REEL TEST's halting flag are the
model's choices (log 17), and so are the other widths and presence bits of a status record (R109) and of a run's progress (R113). -/
def Obligations.ReelHaltAndTest : Prop :=
  ∀ (s : State) (c : List Byte) (p : Port),
    let st := (s.port p).state
    let open_ : Prop := st = .linking ∨ st = .ready ∨ st = .held
    let recordFields := fun (x : StatusRecord) => (
      [.num 4 x.port.val, .num 5 x.reel, .num 16 x.tag,
        .num 3 (match x.reason with
          | .ended => 0 | .halted => 1 | .allPassed => 2 | .segmentNotReady => 3 | .keyMismatch => 4 | .portStalled => 5
          | .portReset => 6)]
        ++ Fld.opt 5 x.lastWord ++ [.num 16 x.residual, .num 16 x.passes] ++ Fld.opt 5 x.failedWord ++ Fld.opt 5 x.lostMark
        ++ [.num 32 x.endTime] : List Fld)
    let progress := fun (r : Run) => (
      [.num 2 (if r.suspended then 2 else 1), .num 1 (if r.halting then 1 else 0), .num 5 r.reel, .num 16 r.tag, .num 4 r.key,
       .num 5 r.curIndex, .num 16 r.residual, .num 16 r.passes, .num 8 r.repeatLeft]
        ++ (match r.slot with
          | .empty => [.num 2 0]
          | .good i _ _ => [.num 2 1, .num 5 i]
          | .deferred i .segmentNotReady => [.num 2 2, .num 5 i, .num 3 3]
          | .deferred i .keyMismatch => [.num 2 2, .num 5 i, .num 3 4]
          | .marker .ended => [.num 2 3, .num 2 0]
          | .marker .allPassed => [.num 2 3, .num 2 2])
        ++ [.num 1 (if r.mark = none then 0 else 1)] : List Fld)
    let staged : Prop := (∃ x, (s.port p).nextPlace = some x ∧ x.fromContext = true)
      ∨ ∃ x, (s.port p).sendingPlace = some x ∧ x.fromContext = true
    (s.passes 0x54 parsePort c p →
      (¬ open_ → exec .reelHalt s = .next { s with fri := s.replied c .unavailable .portState [.num 3 st.code] })
      ∧ (open_ → s.ctx p = .idle → exec .reelHalt s = .next (s.answeredOnly c [.num 1 0]))
      ∧ (∀ r, open_ → s.ctx p = .statusPending r → ∃ t, exec .reelHalt s = .next t
          ∧ t.ctx p = .idle ∧ (∀ q, q ≠ p → t.ctx q = s.ctx q)
          ∧ t = { s with pc := t.pc, fri := s.replied c .status .none (recordFields r) })
      ∧ (∀ r, open_ → s.ctx p = .running r → r.halting = true → exec .reelHalt s = .next (s.answeredOnly c [.num 1 1, .num 1 0]))
      ∧ (∀ r, open_ → s.ctx p = .running r → r.halting = false → staged → ∃ t, exec .reelHalt s = .next t
          ∧ t.ctx p = .running { r with halting := true } ∧ (∀ q, q ≠ p → t.ctx q = s.ctx q)
          ∧ t = { s with pc := t.pc, fri := s.replied c .accepted .none [.num 1 1, .num 1 0] })
      ∧ (∀ r, open_ → s.ctx p = .running r → r.halting = false → ¬ staged → s.full → ∃ t, exec .reelHalt s = .next t
          ∧ t.ctx p = .statusPending { port := p, reel := r.reel, tag := r.tag, reason := .halted, lastWord := some r.curIndex,
                                       residual := r.residual, passes := r.passes, failedWord := none,
                                       lostMark := r.mark.map MarkClaim.wordIndex, endTime := s.tb.runSeconds }
          ∧ (∀ q, q ≠ p → t.ctx q = s.ctx q)
          ∧ (¬ s.taken .reelTable → (t.reelAt r.reel) = { s.reelAt r.reel with binding := (s.reelAt r.reel).binding - 1 })
          ∧ t = { s with pc := t.pc, rl := t.rl, sg := { s.sg with segs := t.sg.segs },
                         fri := s.replied c .accepted .none [.num 1 1, .num 1 1] }))
    ∧ (s.passes 0x55 parsePort c p →
      (¬ open_ → exec .reelTest s = .next { s with fri := s.replied c .unavailable .portState [.num 3 st.code] })
      ∧ (open_ → s.ctx p = .idle → exec .reelTest s = .next (s.answeredOnly c [.num 2 0]))
      ∧ (∀ r, open_ → s.ctx p = .statusPending r → ∃ t, exec .reelTest s = .next t
          ∧ t.ctx p = .idle ∧ (∀ q, q ≠ p → t.ctx q = s.ctx q)
          ∧ t = { s with pc := t.pc, fri := s.replied c .status .none (recordFields r) })
      ∧ (∀ r, open_ → s.ctx p = .running r → exec .reelTest s = .next { s with fri := s.replied c .busy .none (progress r) }))

/-- R102, R103, R108, R109: the take that plays the last cell of a word, by what the prefetch slot holds, while no place of
the reply queue is free; R98, R101: a word of 8 cells or fewer that becomes current is followed by its prefetch at once. -/
def Obligations.WordEndActsOnThePrefetchSlot : Prop :=
  ∀ (s : State) (p : Port) (r : Run), s.ctx p = .running r → r.suspended = false → r.halting = false → r.cutDue = false →
    r.residual = 1 → r.slot ≠ .empty → s.full → s.oh.reset = none →
    (s.port p).state = .ready → (s.port p).nextPlace = none → (s.port p).darkOwed = false →
    (s.port p).settings.mode = .live → (s.slot p).takeover = false →
    (s.slot p).clearOwed = false → (s.slot p).textOwed = false → (s.slot p).cutOwed = false →
    ((s.board p).pendingRows = 0 ∨ (s.port p).spacing < (s.port p).settings.spacing) →
    let record := fun (reason : EndReason) (passes : Nat) (failed : Option Nat) =>
      ({ port := p, reel := r.reel, tag := r.tag, reason := reason, lastWord := some r.curIndex, residual := 0, passes := passes,
         failedWord := failed, lostMark := r.mark.map MarkClaim.wordIndex, endTime := s.tb.runSeconds } : StatusRecord)
    let ended := fun (t : State) (x : StatusRecord) => t.ctx p = .statusPending x
      ∧ (t.reelAt r.reel) = { s.reelAt r.reel with binding := (s.reelAt r.reel).binding - 1 }
    ∃ t, exec (.arbiterTake p) s = .next t
      ∧ (t.port p).nextPlace = some
          { cell := PanelCell.bytes s.fri.address p (.picture (s.readCell r.cur.segment (r.cur.offset + (r.cur.count - 1))))
            fromContext := true }
      ∧ (∀ n, t.pinsOf n = s.pinsOf n - (if r.cur.segment = n then 1 else 0)
          + (match r.slot, t.run? p with
             | .good _ w _, some u => if w.count ≤ 8 ∧ u.slot.pinned = some n then 1 else 0
             | _, _ => 0))
      ∧ (∀ i w crossed, r.slot = .good i w crossed → ∃ u, t.run? p = some u
          ∧ u = { r with curIndex := i, cur := w, residual := w.count, slot := u.slot, cutDue := w.cut, mark := u.mark,
                         passes := if crossed then min 65535 (r.passes + 1) else r.passes,
                         repeatLeft := if crossed then r.repeatLeft - 1 else r.repeatLeft }
          ∧ (8 < w.count → u.slot = .empty) ∧ (w.count ≤ 8 → u.slot ≠ .empty ∧ u.slot = s.prefetched u)
          ∧ u.mark = (if w.mark then
              some { wordIndex := i, passes := u.passes, runSecond := s.tb.runSeconds,
                     overrun := match r.mark with | none => 0 | some m => min 255 (m.overrun + 1) }
              else r.mark)
          ∧ t.rl = s.rl)
      ∧ (∀ i, r.slot = .deferred i .segmentNotReady → ended t (record .segmentNotReady r.passes (some i)))
      ∧ (∀ i, r.slot = .deferred i .keyMismatch → ended t (record .keyMismatch r.passes (some i)))
      ∧ (r.slot = .marker .ended → ended t (record .ended (min 65535 (r.passes + 1)) none))
      ∧ (r.slot = .marker .allPassed → ended t (record .allPassed r.passes none))
      ∧ (∀ q, q ≠ p → t.ctx q = s.ctx q ∧ t.port q = s.port q)
      ∧ t = { s with sg := { s.sg with segs := t.sg.segs }, rl := t.rl, pc := t.pc, pp := t.pp }

/-! ## Notices (chapter 6) -/

/-- R118, R122, R123, R124, R131: NOTICE POST, with the fields of its reply; R81: a TAKEOVER's pin, where no halting run ends
within the post; R23, R124: the evaluation that a DELAY makes; R17, R55: the show change of an effect; R57, R158: a wake's repaint,
and its PANEL_WOKEN claim while no place is free. R124 and R122: the conditions on a post's show effect are those of SHOW DELAY and
SHOW CANCEL. The presence bits of the show's fields are the model's choice (log 17). -/
def Obligations.NoticePostQueuesANotice : Prop :=
  (∀ (s : State) (c : List Byte) (o : PostOrder), s.passes 0x60 parsePost c o →
      (∀ n, s.noticeAt o.key = some n → exec .noticePost s = .next (s.refused c .noticeExists [.num 2 n.state.code]))
      ∧ (s.noticeAt o.key = none → 24 ≤ s.nq.notices.length → exec .noticePost s = .next (s.refused c .tableFull
          [.num 5 (s.nq.notices.filter fun n => !n.state.isOpen).length]))
      ∧ (∀ r, s.noticeAt o.key = none → s.nq.notices.length < 24 → s.effectRefusal o.binding = some r →
          exec .noticePost s = .next (s.refused c r []))
      ∧ (∀ n k, s.noticeAt o.key = none → s.nq.notices.length < 24 → s.effectRefusal o.binding = none →
          o.body = .takeover n k →
          (s.pinAnswer n k 0 (s.segLength n) = .notReady →
            exec .noticePost s = .next (s.refused c .segmentState [.num 2 (s.segCode n)]))
          ∧ (s.pinAnswer n k 0 (s.segLength n) = .keyMismatch →
            exec .noticePost s = .next (s.refused c .keyMismatch [.num 2 (s.segCode n)])))
      ∧ (s.noticeAt o.key = none → s.nq.notices.length < 24 → s.effectRefusal o.binding = none →
          (∀ n k, o.body = .takeover n k → s.pinAnswer n k 0 (s.segLength n) = .granted) →
          let wakes := fun p : Port => PortSet.has o.targets p && decide ((s.port p).settings.mode = .dark)
            && decide ((s.port p).settings.wakeLevel ≤ o.priority)
          ∃ (t : State) (m : Notice), exec .noticePost s = .next t
            ∧ t.noticeAt o.key = some m
            ∧ m = { key := o.key, priority := o.priority, body := o.body, targets := o.targets, duration := o.duration,
                    deadline := if o.duration = 0 then none else some (s.tb.runSeconds + o.duration), binding := o.binding,
                    state := m.state, claimed := false, shownOn := m.shownOn, firstShown := m.firstShown }
            ∧ m.state.isOpen = true
            ∧ (s.full → ∃ before behind, s.nq.notices.map Notice.key = before ++ behind
                ∧ t.nq.notices.map Notice.key = before ++ o.key :: behind
                ∧ (s.noticesLaw → (∀ n ∈ s.nq.notices, (n.key ∈ before ↔ o.priority ≤ n.priority))))
            ∧ (∀ p, (t.port p).settings.mode = if wakes p then .live else (s.port p).settings.mode)
            ∧ (s.full → ∀ p, (t.port p).claims =
                if wakes p then addClaim (.woken o.key o.priority s.tb.runSeconds) (s.port p).claims else (s.port p).claims)
            ∧ (let told : BoardComposer := match o.binding with
                  | none => s.bc
                  | some b => match b.effect with
                      | .none => s.bc
                      | .delay d => if (s.showAt b.showNo).map Show.delay = some d then s.bc else s.boardsTold t b.showNo
                      | .cancel => s.boardsTold t b.showNo
                ∀ p : Port, t.board p = { told.boards[p] with pendingRows := (t.board p).pendingRows }
                  ∧ ∀ i, i < 16 → ((t.board p).pendingRows.getLsbD i = true ↔
                      if wakes p then i < told.boards[p].rows else told.boards[p].pendingRows.getLsbD i = true))
            ∧ ((∀ b, o.binding = some b → b.effect = .none) → t.st = s.st)
            ∧ ((∀ p r, s.run? p = some r → r.halting = false) → ∀ k, t.pinsOf k = s.pinsOf k
                + (match o.body with | .takeover n _ => if n = k then 1 else 0 | .text _ => 0))
            ∧ (∀ b d x, o.binding = some b → b.effect = .delay d → s.showAt b.showNo = some x →
                ∃ y, t.showAt b.showNo = some y ∧ y.delay = d
                  ∧ y = (if x.delay = d then x else match s.tb.clock with
                      | .unset => { x with delay := d }
                      | .running minute _ => Show.evaluate { x with delay := d } minute)
                  ∧ (∀ k, k ≠ b.showNo → t.showAt k = s.showAt k)
                  ∧ t.paths = { s.paths with
                      endNotices := s.paths.endNotices ++ if y.phase = .ended then [(b.showNo, .showEnded)] else [] })
            ∧ (∀ b x, o.binding = some b → b.effect = .cancel → s.showAt b.showNo = some x →
                ∃ y, t.showAt b.showNo = some y ∧ y.phase = .cancelled ∧ y.sold = x.sold
                  ∧ (∀ k, k ≠ b.showNo → t.showAt k = s.showAt k)
                  ∧ (s.holdsLaw → y.held = x.held - s.liveSeats b.showNo ∧ ∀ h ∈ t.sq.holds, h.state = .live →
                      h.showNo ≠ b.showNo))
            ∧ (let shows := fun (b : ShowBinding) (y : Show) =>
                  ([.num 1 1, .num 7 b.showNo, .num 1 1, .num 3 y.phase.code, .num 1 1, .num 11 (y.start + y.delay)] : List Fld)
                let effect : List Fld := match o.binding.filter fun b => decide (b.effect ≠ .none) with
                  | none => List.replicate 6 (.num 1 0)
                  | some b => match t.showAt b.showNo with
                      | none => List.replicate 6 (.num 1 0)
                      | some y => shows b y ++ if b.effect = .cancel
                          then [.num 1 1, .num 10 y.sold, .num 1 1, .num 10 y.held, .num 1 1,
                                .num 10 (y.capacity - y.sold - y.held)]
                          else List.replicate 3 (.num 1 0)
                s.answered t c .accepted .none
                  ([.num 5 o.key.desk, .num 16 o.key.tag, .num 2 m.state.code,
                    .num 12 (PortSet.ofPred fun p => decide ((t.slot p).shown.map Shown.key = some o.key)).reverse.toNat,
                    .num 12 (PortSet.ofPred wakes).reverse.toNat]
                    ++ Fld.opt 32 m.deadline ++ effect))
            ∧ (s.full → t = { s with
                st := { s.st with shows := t.st.shows }, sq := t.sq, bc := t.bc, sg := { s.sg with segs := t.sg.segs }
                rl := t.rl, pc := t.pc, nq := t.nq, pp := t.pp, fri := t.fri
                paths := { s.paths with endNotices := t.paths.endNotices } })))
  ∧ (∀ (s : State) (n : Nat),
      s.effectRefusal none = none ∧ s.effectRefusal (some { showNo := n, effect := .none }) = none
      ∧ (∀ d, s.showAt n = none → s.effectRefusal (some { showNo := n, effect := .delay d }) = some .noSuchShow)
      ∧ (s.showAt n = none → s.effectRefusal (some { showNo := n, effect := .cancel }) = some .noSuchShow)
      ∧ ∀ x, s.showAt n = some x →
          (∀ d, s.effectRefusal (some { showNo := n, effect := .delay d }) =
            if x.phase ≠ .selling ∧ x.phase ≠ .seating then some .wrongPhase
            else if 1799 < x.start + d + x.window then some .badField else none)
          ∧ s.effectRefusal (some { showNo := n, effect := .cancel }) =
            if x.phase = .draft ∨ x.phase = .ended ∨ x.phase = .cancelled then some .wrongPhase else none)

/-- R135, R136: NOTICE WITHDRAW and NOTICE READ, with the record's fields (R119). Which fields carry a presence bit (the form's own
fields none), and the 0 seconds left of an open notice at or behind its deadline, are the model's choices (logs 17 and 31). -/
def Obligations.NoticesAreWithdrawnAndRead : Prop :=
  ∀ (s : State) (c : List Byte) (k : DeskTag),
    let showing := PortSet.ofPred fun p => decide ((s.slot p).shown.map Shown.key = some k)
    (s.passes 0x61 parseKey c k →
      (s.noticeAt k = none → exec .noticeWithdraw s = .next (s.refused c .noSuchNotice []))
      ∧ (∀ n time, s.noticeAt k = some n → n.state = .closing time → ∃ t, exec .noticeWithdraw s = .next t
          ∧ t.nq = { s.nq with notices := s.nq.notices.filter fun m => decide (m.key ≠ k) }
          ∧ t = { s with nq := t.nq,
                         fri := s.replied c .accepted .none
                           ([.num 5 n.key.desk, .num 16 n.key.tag, .num 1 0, .num 12 n.shownOn.reverse.toNat]
                             ++ Fld.opt 32 n.firstShown ++ [.num 1 1, .num 32 time, .num 1 0]) })
      ∧ (∀ n, s.noticeAt k = some n → n.state.isOpen = true → ∃ t, exec .noticeWithdraw s = .next t
          ∧ t.noticeAt k = none ∧ (∀ p, (t.slot p).shown.map Shown.key ≠ some k)
          ∧ (s.full → t.nq.notices.map Notice.key = (s.nq.notices.filter fun m => decide (m.key ≠ k)).map Notice.key)
          ∧ s.answered t c .accepted .none
              ([.num 5 n.key.desk, .num 16 n.key.tag, .num 1 1, .num 12 n.shownOn.reverse.toNat]
                ++ Fld.opt 32 n.firstShown ++ [.num 1 0, .num 1 1, .num 12 showing.reverse.toNat])
          ∧ (s.full → t = { s with
              sg := { s.sg with segs := t.sg.segs }, rl := t.rl, pc := t.pc, nq := t.nq, pp := t.pp, fri := t.fri })))
    ∧ (s.passes 0x62 parseKey c k →
      (s.noticeAt k = none → exec .noticeRead s = .next (s.refused c .noSuchNotice []))
      ∧ ∀ n, s.noticeAt k = some n → exec .noticeRead s = .next (s.answeredOnly c
          ([.num 5 n.key.desk, .num 16 n.key.tag, .num 2 n.priority,
            .num 1 (match n.body with | .text _ => 0 | .takeover _ _ => 1), .num 12 n.targets.reverse.toNat]
            ++ (match n.body with
              | .text chars => [.num 6 chars.length] ++ chars.map fun b => .num 8 b.toNat
              | .takeover segment key => [.num 10 segment, .num 4 key])
            ++ [.num 12 n.duration] ++ Fld.opt 32 n.deadline
            ++ (match n.binding with
              | none => [.num 1 0]
              | some b => [.num 1 1, .num 7 b.showNo] ++ (match b.effect with
                | .none => [.num 2 0]
                | .delay minutes => [.num 2 1, .num 8 minutes]
                | .cancel => [.num 2 2]))
            ++ [.num 2 (match n.state with | .waiting => 0 | .shown => 1 | .closing _ => 2), .num 12 n.shownOn.reverse.toNat]
            ++ Fld.opt 32 n.firstShown ++ Fld.opt 32 (match n.state with | .closing time => some time | .waiting | .shown => none)
            ++ [.num 5 (s.nq.notices.findIdx (fun m => m.key = k) + 1), .num 12 showing.reverse.toNat]
            ++ Fld.opt 12 (if n.state.isOpen then n.deadline.map fun d => d - s.tb.runSeconds else none))))

/-- R126: what a change of a port's shown notice leaves owed. R130, R105, R112: a TAKEOVER that enters the slot flushes the live
buffer and suspends the context's run, or ends a halting one, whose pins, binding and record then move, and whose claim may be
given a place. R130, R106: a TAKEOVER that leaves it takes its cause away: a SUSPENDED run resumes at the start of its current word
with CUT due, if the mode is LIVE and the port LINKING, READY or HELD; a halting one waits on for its end (log 20). -/
def Obligations.SlotChangeOwesItsCells : Prop :=
  ∀ (s : State) (p : Port),
    let t := State.selectPort p s
    (s.selected p).map Notice.key ≠ (s.slot p).shown.map Shown.key →
    (t.slot p).shown = (s.selected p).map (fun n => { key := n.key, form := n.form })
    ∧ ((t.slot p).clearOwed = true ↔
        (s.slot p).clearOwed = true ∨ ∃ x, (s.slot p).shown = some x ∧ x.form = .text)
    ∧ ((t.slot p).textOwed = true ↔ ∃ n, s.selected p = some n ∧ n.form = .text)
    ∧ ((t.slot p).cutOwed = true ↔ ∃ n, s.selected p = some n ∧ n.form = .takeover)
    ∧ (t.slot p).position = 0 ∧ (t.slot p).repeatCut = false
    ∧ (∀ q, q ≠ p → t.slot q = s.slot q)
    ∧ (∀ r, (s.slot p).takeover = false → (t.slot p).takeover = true → s.run? p = some r →
        (r.halting = false → t.run? p = some { r with suspended := true }) ∧ (r.halting = true → t.run? p = none))
    ∧ (∀ r, (s.slot p).takeover = true → (t.slot p).takeover = false → s.run? p = some r →
        let resumes : Prop := r.suspended = true ∧ r.halting = false ∧ (s.port p).settings.mode = .live
          ∧ ((s.port p).state = .linking ∨ (s.port p).state = .ready ∨ (s.port p).state = .held)
        (resumes → t.run? p = some { r with suspended := false, residual := r.cur.count, cutDue := true })
        ∧ (¬ resumes → t.run? p = some r))
    ∧ ((s.slot p).takeover = (t.slot p).takeover ∨ s.run? p = none → t.ctx p = s.ctx p)
    ∧ ((t.slot p).takeover = true → (t.port p).live = [] ∧ (t.port p).liveGap = true)
    ∧ ((t.slot p).takeover = false → t.port p = s.port p)
    ∧ ((∀ r, s.run? p = some r → r.halting = false) → t = { s with pc := t.pc, nq := t.nq, pp := t.pp }
        ∧ ∀ q, q ≠ p → t.ctx q = s.ctx q ∧ t.port q = s.port q)
    ∧ (s.full → t = { s with sg := { s.sg with segs := t.sg.segs }, rl := t.rl, pc := t.pc, nq := t.nq, pp := t.pp }
        ∧ ∀ q, q ≠ p → t.ctx q = s.ctx q ∧ t.port q = s.port q)
    ∧ t = { s with
        tb := { s.tb with dayRolled := t.tb.dayRolled }, sq := t.sq, sg := { s.sg with segs := t.sg.segs }, rl := t.rl
        pc := t.pc, nq := t.nq, pp := t.pp, fri := { s.fri with queue := t.fri.queue, restored := t.fri.restored } }
    ∧ (∀ n, s.noticesLaw → s.selected p = some n → ∃ m ∈ t.nq.notices, m.key = n.key ∧ m.state = .shown
        ∧ PortSet.has m.shownOn p = true ∧ m.firstShown = some (n.firstShown.getD s.tb.runSeconds))

/-! ## Panel ports (chapter 7) -/

/-- R145, R149, R160, R161, R162: the orders that link and drain a port. R107, R108, R109, R112: a disable and a reset
end the port's run PORT_RESET, or HALTED where it is halting, with its pins and the binding of its reel given back and its record
reported or waiting for its place; that a free place is given to it within the order is the model's reading (log 6), and the coding
of the report is log 17. -/
def Obligations.PortsEnableDisableAndReset : Prop :=
  ∀ (s : State) (c : List Byte) (p : Port),
    let r := s.port p
    let links := fun t : State =>
      (t.port p).state = .linking ∧ (t.port p).linkCount = 0 ∧ (t.port p).linkTimer = true ∧ (t.port p).holdTimer = false
        ∧ (t.port p).retryTimer = false ∧ (t.port p).nextPlace = some { cell := PanelCell.bytes s.fri.address p .link, fromContext := false }
        ∧ (t.port p).restoreDue = r.restoreDue
    let frame := fun t : State =>
      (t.port p).settings = r.settings ∧ (t.port p).darkOwed = r.darkOwed
        ∧ (t.slot p).shown.map Shown.key = (t.selected p).map Notice.key
        ∧ (s.full → (t.port p).claims = r.claims ∧ (s.run? p = none → t.ctx p = s.ctx p)
            ∧ (∀ q, q ≠ p → t.port q = s.port q ∧ t.ctx q = s.ctx q ∧ t.slot q = s.slot q)
            ∧ t = { s with sg := { s.sg with segs := t.sg.segs }, rl := t.rl, pc := t.pc, nq := t.nq, pp := t.pp,
                           fri := t.fri })
    let ended := fun t : State => t.run? p = none ∧ ∀ u, s.run? p = some u →
      let record : StatusRecord :=
        { port := p, reel := u.reel, tag := u.tag, reason := if u.halting then .halted else .portReset,
          lastWord := some u.curIndex, residual := u.residual, passes := u.passes, failedWord := none,
          lostMark := u.mark.map MarkClaim.wordIndex, endTime := s.tb.runSeconds }
      t.endedWith p record ∧ (s.full → t.ctx p = .statusPending record)
        ∧ t.reelAt u.reel = { s.reelAt u.reel with binding := (s.reelAt u.reel).binding - 1 }
        ∧ ∀ n, t.pinsOf n =
            s.pinsOf n - (if u.cur.segment = n then 1 else 0) - (if u.slot.pinned = some n then 1 else 0)
    let reply := fun t : State =>
      s.answered t c .accepted .none
        [.num 4 p.val, .num 3 (t.port p).state.code, .num 2 r.settings.mode.code, .num 2 (t.ctx p).code]
    (s.passes 0x70 parsePort c p →
      (r.state ≠ .off → exec .portEnable s = .next (s.refused c .portState (s.portBase p)))
      ∧ (r.state = .off → ∃ t, exec .portEnable s = .next t ∧ links t ∧ frame t ∧ reply t))
    ∧ (s.passes 0x71 parsePort c p →
      (r.state = .off ∨ r.state = .draining → exec .portDisable s = .next (s.refused c .portState (s.portBase p)))
      ∧ (r.state ≠ .off → r.state ≠ .draining → ∃ t, exec .portDisable s = .next t
          ∧ (t.port p).state = (if r.nextPlace = none ∧ r.sendingPlace = none then .off else .draining)
          ∧ (t.port p).nextPlace = r.nextPlace ∧ (t.port p).sendingPlace = r.sendingPlace
          ∧ (t.port p).live = [] ∧ (t.port p).liveGap = true ∧ (t.port p).linkTimer = false ∧ (t.port p).retryTimer = false
          ∧ (t.port p).keepAlive = .stopped ∧ (t.port p).restoreDue = none
          ∧ ended t ∧ (t.slot p).shown = none ∧ frame t ∧ reply t))
    ∧ (s.passes 0x72 parsePort c p →
      (r.state = .off ∨ r.state = .draining → exec .portReset s = .next (s.refused c .portState (s.portBase p)))
      ∧ (r.state ≠ .off → r.state ≠ .draining → ∃ t, exec .portReset s = .next t
          ∧ links t ∧ (t.port p).sendingPlace = none ∧ (t.port p).live = [] ∧ (t.port p).liveGap = true
          ∧ (t.port p).keepAlive = .stopped ∧ ended t ∧ frame t ∧ reply t))

/-- R132, R144, R149, R151, R157, R163, R164: PORT SET. How long the port has waited and when it last took a cell are the command's
operands (log 7), by the second of which a named keep-alive interval is measured again. That the bit 1 is "on" of slip check is the
model's choice (log 17). -/
def Obligations.PortSetWritesTheNamedSettings : Prop :=
  ∀ (s : State) (c : List Byte) (waitedMs sinceTakeMs : Nat) (e : PortEdit), s.passes 0x73 parsePortSet c e →
    let p := e.port
    let x := (s.port p).settings
    let keeps := fun n : Notice =>
      n.state.isOpen && PortSet.has n.targets p && decide (e.wakeLevel.getD x.wakeLevel ≤ n.priority)
    let darkens : Prop := e.mode = some .dark ∧ x.mode ≠ .dark
    let waited : Prop := (s.port p).holdTimer = true ∧ ∃ n, e.holdTimeout = some n ∧ 25 * 2 ^ n ≤ waitedMs
    (∀ n, darkens → s.nq.notices.find? keeps = some n → exec (.portSet waitedMs sinceTakeMs) s = .next
      (s.refused c .wakeNotice (s.portBase p ++ [.num 5 n.key.desk, .num 16 n.key.tag, .num 2 n.priority])))
    ∧ ((darkens → ∀ n ∈ s.nq.notices, keeps n = false) → ∃ t, exec (.portSet waitedMs sinceTakeMs) s = .next t
        ∧ (t.port p).settings = { mode := e.mode.getD x.mode, gap := e.gap.getD x.gap, spacing := e.spacing.getD x.spacing,
                                  holdTimeout := e.holdTimeout.getD x.holdTimeout,
                                  keepAlive := e.keepAlive.getD x.keepAlive, slipCheck := e.slipCheck.getD x.slipCheck,
                                  wakeLevel := e.wakeLevel.getD x.wakeLevel }
        ∧ (∀ q, q ≠ p → (t.port q).settings = (s.port q).settings ∧ (t.port q).state = (s.port q).state)
        ∧ s.answered t c .accepted .none
            ([.num 4 p.val, .num 3 (t.port p).state.code, .num 2 (t.port p).settings.mode.code, .num 2 (t.ctx p).code,
              .num 2 (t.port p).settings.mode.code, .num 8 (t.port p).settings.gap, .num 4 (t.port p).settings.spacing,
              .num 3 (t.port p).settings.holdTimeout, .num 3 (t.port p).settings.keepAlive,
              Fld.yes (t.port p).settings.slipCheck, .num 2 (t.port p).settings.wakeLevel])
        ∧ (¬ waited → (t.port p).state = (s.port p).state
            ∧ (t.port p).darkOwed = (match e.mode with
                | none => (s.port p).darkOwed
                | some m => if m = x.mode then (s.port p).darkOwed else decide (m = .dark) || ((s.port p).darkOwed &&
                    decide (x.mode ≠ .dark)))
            ∧ (t.port p).keepAlive = (match e.keepAlive with
                | none => (s.port p).keepAlive
                | some n => if (s.port p).keepAlive = .stopped then .stopped
                    else if 25 * 2 ^ n ≤ sinceTakeMs then .ranOut else .running)
            ∧ (x.mode = .dark → (e.mode = some .live ∨ e.mode = some .quiet) → ∀ i, i < 16 → i < (s.board p).rows →
                (t.board p).pendingRows.getLsbD i = true)
            ∧ (x.mode = .live → (e.mode = some .quiet ∨ e.mode = some .dark) → (t.port p).live = []
                ∧ (t.port p).liveGap = true ∧ ∀ r, t.run? p = some r → r.suspended = true)
            ∧ (∀ r, x.mode ≠ .live → e.mode = some .live → s.run? p = some r → r.suspended = true → r.halting = false →
                (s.port p).state.available = true → (t.slot p).takeover = false → ∃ u, t.run? p = some u
                  ∧ u.suspended = false ∧ u.cur = r.cur ∧ u.residual = r.cur.count ∧ u.cutDue = true ∧ u.slot = r.slot))
        ∧ (waited → (s.port p).state = .held → (t.port p).state = .stalled)
        ∧ (waited → (s.port p).state = .draining → (t.port p).state = .off)
        ∧ (s.full → t = { s with
            sg := { s.sg with segs := t.sg.segs }, rl := t.rl, pc := t.pc, nq := t.nq, bc := t.bc, pp := t.pp, fri := t.fri }))

/-- R152, R154, R155, R157: what the arbiter takes, in the order of the sources, and what each take changes: behind a stream take the
source stands as `streamTake` leaves it, one cell on (R156). -/
def Obligations.ArbiterTakesTheFirstSource : Prop :=
  ∀ (s : State) (p : Port),
    let r := s.port p
    let x := s.slot p
    let staged := fun (t : State) (cell : PanelCell) =>
      t.setPort p { t.port p with
        nextPlace := some { cell := PanelCell.bytes s.fri.address p cell, fromContext := false }, keepAlive := .running }
    let ready : Prop := r.state = .ready ∧ r.nextPlace = none
    let lit : Prop := ready ∧ r.darkOwed = false ∧ r.settings.mode ≠ .dark
    let owesNothing : Prop := x.clearOwed = false ∧ x.textOwed = false ∧ x.cutOwed = false
    (¬ ready → exec (.arbiterTake p) s = .next s)
    ∧ (ready → r.darkOwed = true → exec (.arbiterTake p) s = .next (staged (s.setPort p { r with darkOwed := false }) .dark))
    ∧ (ready → r.darkOwed = false → r.settings.mode = .dark → r.keepAlive = .ranOut →
        exec (.arbiterTake p) s = .next (staged s .keepalive))
    ∧ (ready → r.darkOwed = false → r.settings.mode = .dark → r.keepAlive ≠ .ranOut → exec (.arbiterTake p) s = .next s)
    ∧ (lit → x.clearOwed = true →
        exec (.arbiterTake p) s = .next (staged (s.setSlot p { x with clearOwed := false }) .noticeClear))
    ∧ (∀ k n cs, lit → x.clearOwed = false → x.textOwed = true → x.shown = some k → s.noticeAt k.key = some n →
        n.body = .text cs → exec (.arbiterTake p) s
          = .next (staged (s.setSlot p { x with textOwed := false }) (.noticeText n.key n.priority cs)))
    ∧ (lit → x.clearOwed = false → x.textOwed = false → x.cutOwed = true →
        exec (.arbiterTake p) s = .next (staged (s.setSlot p { x with cutOwed := false }) .cut))
    ∧ (∀ i, lit → owesNothing → s.streamSource p = none ∨ r.settings.spacing ≤ r.spacing → i < (s.board p).rows →
        (s.board p).pendingRows.getLsbD i = true → (∀ j, j < i → (s.board p).pendingRows.getLsbD j = false) →
        ∃ t, exec (.arbiterTake p) s = .next t
          ∧ (∀ j, j < 16 → ((t.board p).pendingRows.getLsbD j = true ↔ (s.board p).pendingRows.getLsbD j = true ∧ j ≠ i))
          ∧ (∀ q, q ≠ p → t.board q = s.board q) ∧ (t.board p).rowList = (s.board p).rowList
          ∧ t = staged { s.setPort p { r with spacing := 0 } with bc := t.bc } (s.stripCell p i))
    ∧ (∀ y, lit → owesNothing → s.streamSource p = some y →
        ((s.board p).pendingRows = 0 ∨ r.spacing < r.settings.spacing) →
          let u := (s.streamTake p y).2
          let t := u.setPort p { u.port p with
            nextPlace := some
              { cell := PanelCell.bytes s.fri.address p (s.streamTake p y).1
                fromContext := match y with | .context _ => true | .takeover _ => false | .live _ _ => false }
            keepAlive := .running
            spacing := min 8 (r.spacing + 1) }
          exec (.arbiterTake p) s = .next t
          ∧ (s.full → (∀ q, q ≠ p → t.port q = s.port q ∧ t.ctx q = s.ctx q ∧ t.slot q = s.slot q)
              ∧ t = { s with sg := { s.sg with segs := t.sg.segs }, rl := t.rl, pc := t.pc, nq := t.nq, pp := t.pp }))
    ∧ (lit → owesNothing → s.streamSource p = none → (s.board p).pendingRows = 0 →
        exec (.arbiterTake p) s = .next (if r.keepAlive = .ranOut then staged s .keepalive else s))

/-- R156, R128, R97, R98: the stream source of a port, and the cell it gives to a take. R68, R83: the cell a pin holder reads is
the 64 bytes of its place; a byte nothing has written is a free value (log 5). The TAKEOVER clauses also cover a segment that the
Segment Table's part of a UNIT RESET has made EMPTY: that its length then counts as 0, so that each picture returns the position to
0 with repeat CUT due, is the model's choice (log 29). R200, 10.3: the 80 bytes of a panel cell: its
header, both check words, and the payload of every kind. R59, R60: what a strip carries. -/
def Obligations.StreamSourceGivesItsNextCell : Prop :=
  (∀ (s : State) (p : Port),
      let x := s.slot p
      (∀ k n seg key, x.shown = some k → k.form = .takeover → s.noticeAt k.key = some n → n.body = .takeover seg key →
        (s.port p).settings.mode ≠ .dark →
        (x.cutOwed = true → s.streamSource p = none)
        ∧ (x.cutOwed = false → s.streamSource p = some (.takeover seg)
          ∧ (x.repeatCut = true → s.streamTake p (.takeover seg)
              = (.cut, s.setSlot p { x with repeatCut := false }))
          ∧ (x.repeatCut = false → x.position + 1 < s.segLength seg → s.streamTake p (.takeover seg)
              = (.picture (s.readCell seg x.position), s.setSlot p { x with position := x.position + 1 }))
          ∧ (x.repeatCut = false → s.segLength seg ≤ x.position + 1 → s.streamTake p (.takeover seg)
              = (.picture (s.readCell seg x.position), s.setSlot p { x with position := 0, repeatCut := true }))))
      ∧ (∀ r, x.takeover = false → (s.port p).settings.mode = .live → s.ctx p = .running r → r.suspended = false →
          r.halting = false → s.streamSource p = some (.context r)
          ∧ (r.cutDue = true → s.streamTake p (.context r)
              = (.cut, s.setCtx p (.running { r with cutDue := false })))
          ∧ (r.cutDue = false → (s.streamTake p (.context r)).1
              = .picture (s.readCell r.cur.segment (r.cur.offset + (r.cur.count - r.residual))))
          ∧ (r.cutDue = false → 2 ≤ r.residual → 10 ≤ r.residual ∨ r.slot ≠ .empty → (s.streamTake p (.context r)).2
              = s.setCtx p (.running { r with residual := r.residual - 1 }))
          ∧ (r.cutDue = false → 2 ≤ r.residual → (s.streamTake p (.context r)).2
              = State.prefetch p (s.setCtx p (.running { r with residual := r.residual - 1 }))))
      ∧ (∀ oldest rest, x.takeover = false → (s.port p).settings.mode = .live → s.ctx p = .idle →
          (s.port p).live = oldest :: rest → s.streamSource p = some (.live oldest rest)
          ∧ ((s.port p).liveGap = true → s.streamTake p (.live oldest rest)
              = (.cut, s.setPort p { s.port p with liveGap := false }))
          ∧ ((s.port p).liveGap = false → s.streamTake p (.live oldest rest)
              = (.picture oldest, s.setPort p { s.port p with live := rest })))
      ∧ (x.takeover = false → ((s.port p).settings.mode ≠ .live ∨ (∃ r, s.ctx p = .statusPending r)
            ∨ (∃ r, s.ctx p = .running r ∧ (r.suspended = true ∨ r.halting = true))
            ∨ (s.ctx p = .idle ∧ (s.port p).live = [])) → s.streamSource p = none))
  ∧ (∀ (s : State) (n i : Nat) (g : Segment), s.segAt n = some g →
      (s.readCell n i).length = 64
      ∧ ∀ k b, k < 64 → Memory.read s.sg.content ((g.firstPage * 64 + i) * 64 + k) = some b → (s.readCell n i)[k]? = some b)
  ∧ (∀ (unit : BitVec 5) (p : Port) (x : PanelCell),
      let b := PanelCell.bytes unit p x
      let kind : Nat := match x with
        | .link => 1 | .keepalive => 2 | .strip _ _ _ => 3 | .noticeText _ _ _ => 4 | .noticeClear => 5 | .picture _ => 6
        | .cut => 7 | .dark => 8
      b.take 12 = [BitVec.ofNat 8 kind, BitVec.ofNat 8 unit.toNat, BitVec.ofNat 8 p.val, 0, 0, 0, 0, 0, 0, 0, 0, 0]
      ∧ natOfBytes ((b.drop 12).take 2) = (checkWord (b.drop 16)).toNat
      ∧ natOfBytes ((b.drop 14).take 2) = (checkWord (b.take 14)).toNat
      ∧ (∀ bytes, x = .picture bytes → b.drop 16 = bytes)
      ∧ (∀ key priority chars, x = .noticeText key priority chars → chars.length ≤ 48 → b.drop 16 =
          [BitVec.ofNat 8 key.desk, BitVec.ofNat 8 (key.tag / 256), BitVec.ofNat 8 key.tag, BitVec.ofNat 8 priority,
           BitVec.ofNat 8 chars.length] ++ chars ++ List.replicate (48 - chars.length) 0 ++ List.replicate 11 0)
      ∧ (∀ row rows, x = .strip row rows none → b.drop 16 =
          [BitVec.ofNat 8 row, BitVec.ofNat 8 rows, 0xFF] ++ List.replicate 61 0)
      ∧ (∀ row rows y, x = .strip row rows (some y) → y.title.length ≤ 40 → b.drop 16 =
          [BitVec.ofNat 8 row, BitVec.ofNat 8 rows, BitVec.ofNat 8 y.showNo, BitVec.ofNat 8 y.auditorium,
           BitVec.ofNat 8 (y.effStart / 256), BitVec.ofNat 8 y.effStart, BitVec.ofNat 8 y.delay, BitVec.ofNat 8 y.phase.code,
           BitVec.ofNat 8 y.format, BitVec.ofNat 8 (y.free / 256), BitVec.ofNat 8 y.free, BitVec.ofNat 8 y.avail.code,
           BitVec.ofNat 8 y.title.length] ++ y.title ++ List.replicate (40 - y.title.length) 0 ++ List.replicate 11 0)
      ∧ (x = .link ∨ x = .keepalive ∨ x = .noticeClear ∨ x = .cut ∨ x = .dark → b.drop 16 = List.replicate 64 0))
  ∧ (∀ (s : State) (p : Port) (i : Nat),
      (∀ n x, (s.board p).rowList[i]? = some (some n) → s.showAt n = some x → s.stripCell p i = .strip i (s.board p).rows
        (some { showNo := n, auditorium := x.auditorium, title := (s.titleAt x.title).getD [], effStart := x.start + x.delay,
                delay := x.delay, phase := x.phase, format := x.format, free := x.capacity - x.sold - x.held,
                avail := x.avail }))
      ∧ ((∀ n, (s.board p).rowList[i]? = some (some n) → s.showAt n = none) →
          s.stripCell p i = .strip i (s.board p).rows none))

/-- R141, R142, R145, R146, R107: the start of a cell; a LINK cell that starts counts the boundary before it (log 15). The pacing by
a measured operand, with no gap before the first cell since power-on (log 7), and a start without the arbiter's take (log 19) are
the model's. R141, R142, R145, R149: the end of a strobe, whose cell stands in `strobed` (log 23). -/
def Obligations.CellsCrossTheLine : Prop :=
  (∀ (s : State) (p : Port) (us : Nat),
      let r := s.port p
      let paced : Prop := r.started = false ∨ r.settings.gap ≤ us
      let count := if r.hold = true ∨ r.boundaryHold = true then 0 else if r.linkSent then r.linkCount + 1 else r.linkCount
      (r.nextPlace = none ∨ r.sendingPlace ≠ none ∨ ¬ paced ∨ r.state = .off ∨ r.state = .held ∨ r.state = .stalled
          ∨ (r.state = .ready ∧ (r.hold = true ∨ r.boundaryHold = true)) ∨ (r.state = .draining ∧ r.holdTimer = true) →
        exec (.cellStart p us) s = .next s)
      ∧ (∀ c, r.nextPlace = some c → r.sendingPlace = none → paced →
          ((r.state = .ready ∧ r.hold = false ∧ r.boundaryHold = false) ∨ (r.state = .draining ∧ r.holdTimer = false)) →
          exec (.cellStart p us) s = .next (s.setPort p { r with
            sendingPlace := some c, nextPlace := none, started := true, boundaryHold := false,
            slipArmed := r.settings.slipCheck }))
      ∧ (r.nextPlace = some { cell := PanelCell.bytes s.fri.address p .link, fromContext := false } → r.sendingPlace = none → paced → r.state = .linking →
          (count < 4 → exec (.cellStart p us) s = .next (s.setPort p { r with
            sendingPlace := r.nextPlace, started := true, boundaryHold := false, slipArmed := r.settings.slipCheck,
            linkCount := count }))
          ∧ (4 ≤ count → ∃ t, exec (.cellStart p us) s = .next t
              ∧ (t.port p).state = .ready ∧ (t.port p).sendingPlace = r.nextPlace ∧ (t.port p).nextPlace = none
              ∧ (t.port p).linkTimer = false ∧ (t.port p).liveGap = true ∧ (t.port p).spacing = 0
              ∧ (t.port p).keepAlive = .running ∧ (t.port p).restoreDue = none
              ∧ (t.port p).darkOwed = (r.darkOwed || decide (r.settings.mode = .dark)) ∧ (t.port p).settings = r.settings
              ∧ (∀ i, i < 16 → i < (s.board p).rows → (t.board p).pendingRows.getLsbD i = true)
              ∧ (s.selectionLaw → t.slot p = (match (s.slot p).form with
                  | some .text => { s.slot p with textOwed := true }
                  | some .takeover => { s.slot p with cutOwed := true, position := 0, repeatCut := false }
                  | none => s.slot p))
              ∧ (s.full → (t.port p).claims = (match r.restoreDue with
                  | none => r.claims
                  | some d => addClaim (.restored d.stallTime s.tb.runSeconds d.retries) r.claims))
              ∧ (∀ q, q ≠ p → t.board q = s.board q ∧ t.slot q = s.slot q ∧ (t.port q).state = (s.port q).state)
              ∧ (s.full → s.selectionLaw → t = { s with bc := t.bc, pc := t.pc, nq := t.nq, pp := t.pp }
                  ∧ (∀ q, q ≠ p → t.ctx q = s.ctx q)
                  ∧ (∀ u, s.run? p = some u → t.run? p = some { u with cutDue := u.cutDue || !u.suspended })))))
  ∧ (∀ (s : State) (p : Port),
      let r := s.port p
      (r.sendingPlace = none → exec (.cellSent p) s = .next s)
      ∧ ∀ c, r.sendingPlace = some c →
          (s.selectionLaw → (c.fromContext = false ∨ ∀ u, s.run? p = some u → u.halting = false) →
            r.state ≠ .draining ∨ r.nextPlace ≠ none →
            exec (.cellSent p) s = .next (s.setPort p { r with
              sendingPlace := none, strobed := some c.cell, linkSent := r.linkSent || decide (r.state = .linking),
              boundaryHold := r.boundaryHold || r.hold,
              state := if r.hold = true ∧ r.state = .ready then .held else r.state,
              holdTimer := r.holdTimer || (r.hold && decide (r.state = .ready ∨ r.state = .draining)),
              linkCount := if r.hold = true ∧ r.state = .linking then 0 else r.linkCount }))
          ∧ (∃ t, exec (.cellSent p) s = .next t ∧ (t.port p).sendingPlace = none ∧ (t.port p).strobed = some c.cell
              ∧ (r.state = .draining → r.nextPlace = none → (t.port p).state = .off)
              ∧ (∀ u, c.fromContext = true → s.run? p = some u → u.halting = true →
                  (∀ d, r.nextPlace = some d → d.fromContext = false) → t.run? p = none)
              ∧ (s.full → (∀ q, q ≠ p → t.port q = s.port q ∧ t.ctx q = s.ctx q ∧ t.slot q = s.slot q)
                  ∧ t = { s with sg := { s.sg with segs := t.sg.segs }, rl := t.rl, pc := t.pc, nq := t.nq, pp := t.pp })))

/-- R142, R144, R145, R149: HOLD asserted at a boundary or during a strobe, and released. A strobe's assertion that ends
before the strobe does leaves a READY port READY (the model's choice, log 14). R143, R107, R149: HOLD in the body of the cell
on the line; that a LINK cell still on the line when its port became READY counts as the READY port's is the model's reading
(log 15). -/
def Obligations.HoldAndSlipActOnTheState : Prop :=
  (∀ (s : State) (p : Port), s.selectionLaw →
      let r := s.port p
      exec (.holdAsserted p) s = .next (s.setPort p
        (if r.sendingPlace ≠ none then { r with hold := true, boundaryHold := true }
         else match r.state with
          | .ready => { r with hold := true, boundaryHold := true, state := .held, holdTimer := true }
          | .linking => { r with hold := true, boundaryHold := true, linkCount := 0 }
          | .draining => { r with hold := true, boundaryHold := true, holdTimer := true }
          | .off | .held | .stalled => { r with hold := true, boundaryHold := true }))
      ∧ exec (.holdReleased p) s = .next (s.setPort p
        (match r.state with
          | .held => { r with hold := false, boundaryHold := false, state := .ready, holdTimer := false }
          | .draining => { r with hold := false, boundaryHold := false, holdTimer := false }
          | .ready => { r with hold := false, boundaryHold := false }
          | .off | .linking | .stalled => { r with hold := false })))
  ∧ (∀ (s : State) (p : Port),
      let r := s.port p
      (r.sendingPlace = none → exec (.slip p) s = .next s)
      ∧ (r.sendingPlace ≠ none → r.state = .ready ∨ r.state = .draining → r.slipArmed = false →
          exec (.slip p) s = .next (s.setPort p { r with hold := true }))
      ∧ (r.sendingPlace ≠ none → r.state = .linking →
          exec (.slip p) s = .next (s.setPort p { r with hold := true, linkCount := 0 }))
      ∧ (r.sendingPlace ≠ none → r.state = .ready → r.slipArmed = true → ∃ t, exec (.slip p) s = .next t
          ∧ (t.port p).state = .linking ∧ (t.port p).sendingPlace = none
          ∧ (t.port p).nextPlace = some { cell := PanelCell.bytes s.fri.address p .link, fromContext := false }
          ∧ (t.port p).linkCount = 0
          ∧ (t.port p).linkTimer = true ∧ (t.port p).keepAlive = .stopped ∧ (t.port p).live = [] ∧ (t.port p).liveGap = true
          ∧ (t.port p).settings = r.settings ∧ (t.port p).restoreDue = r.restoreDue
          ∧ (∀ u, s.run? p = some u → u.halting = true → t.run? p = none)
          ∧ (∀ u, s.run? p = some u → u.halting = false → s.selectionLaw →
              t.run? p = some { u with residual := u.cur.count, cutDue := true })
          ∧ (∀ q, q ≠ p → (t.port q).state = (s.port q).state ∧ t.slot q = s.slot q)
          ∧ (s.full → t = { s with sg := { s.sg with segs := t.sg.segs }, rl := t.rl, pc := t.pc, nq := t.nq, pp := t.pp }))
      ∧ (r.sendingPlace ≠ none → r.state = .draining → r.slipArmed = true → ∃ t, exec (.slip p) s = .next t
          ∧ (t.port p).state = .off ∧ (t.port p).sendingPlace = none ∧ (t.port p).nextPlace = none
          ∧ (s.full → t = { s with sg := { s.sg with segs := t.sg.segs }, rl := t.rl, pc := t.pc, nq := t.nq, pp := t.pp })))

/-- R144, R145, R147, R148, R149, R157: the timers of a port. The elapsed time is the command's operand (log 7). KEEPALIVE_TIMEOUT
only notes that its timer has run out; the KEEPALIVE is a take of its own (log 19). R158: making
a port-event claim: one waiting claim of each kind, the occurrences of a repeated one counted up to 255. R107, R108, R109, R112: a
stall ends the port's run PORT_STALLED, or HALTED where it is halting, with its pins and the binding of its reel given back and its
record reported or waiting for its place; that a free place is given to it in the same step is the model's reading (log 6), and the
coding of the report is log 17. -/
def Obligations.PortTimersRunOut : Prop :=
  (∀ (s : State) (p : Port) (ms : Nat),
      let r := s.port p
      let stalls := fun (cause : StallCause) (t : State) =>
        (t.port p).state = .stalled ∧ (t.port p).nextPlace = none ∧ (t.port p).sendingPlace = none ∧ (t.port p).live = []
          ∧ (t.port p).liveGap = true ∧ (t.port p).linkTimer = false ∧ (t.port p).holdTimer = false
          ∧ (t.port p).retryTimer = true ∧ (t.port p).keepAlive = .stopped ∧ (t.port p).settings = r.settings
          ∧ (t.port p).restoreDue = some (match r.restoreDue with
              | none => { stallTime := s.tb.runSeconds, retries := 0 }
              | some d => { d with retries := min 255 (d.retries + 1) })
          ∧ t.run? p = none ∧ (t.slot p).shown = none
          ∧ (∀ u, s.run? p = some u →
              let record : StatusRecord :=
                { port := p, reel := u.reel, tag := u.tag, reason := if u.halting then .halted else .portStalled,
                  lastWord := some u.curIndex, residual := u.residual, passes := u.passes, failedWord := none,
                  lostMark := u.mark.map MarkClaim.wordIndex, endTime := s.tb.runSeconds }
              t.endedWith p record ∧ (s.full → t.ctx p = .statusPending record)
                ∧ (¬ s.taken .reelTable →
                    t.reelAt u.reel = { s.reelAt u.reel with binding := (s.reelAt u.reel).binding - 1 })
                ∧ (¬ s.taken .segmentTable → ∀ n, t.pinsOf n =
                    s.pinsOf n - (if u.cur.segment = n then 1 else 0) - (if u.slot.pinned = some n then 1 else 0)))
          ∧ (s.full → (s.run? p = none → t.ctx p = s.ctx p) ∧ ∀ q, q ≠ p → t.ctx q = s.ctx q)
          ∧ (s.full → (t.port p).claims = (match r.restoreDue with
              | none => addClaim (.stalled cause r.state s.tb.runSeconds) r.claims
              | some _ => r.claims)
            ∧ t = { s with sg := { s.sg with segs := t.sg.segs }, rl := t.rl, pc := t.pc, nq := t.nq, pp := t.pp })
          ∧ (∀ q, q ≠ p → (t.port q).state = (s.port q).state)
      (r.holdTimer = true → 25 * 2 ^ r.settings.holdTimeout ≤ ms → r.state = .held →
        ∃ t, exec (.holdTimeout p ms) s = .next t ∧ stalls .holdTimeout t)
      ∧ (r.holdTimer = true → 25 * 2 ^ r.settings.holdTimeout ≤ ms → r.state = .draining →
        ∃ t, exec (.holdTimeout p ms) s = .next t
          ∧ (t.port p).state = .off ∧ (t.port p).sendingPlace = none ∧ (t.port p).nextPlace = none
          ∧ (s.full → t = { s with sg := { s.sg with segs := t.sg.segs }, rl := t.rl, pc := t.pc, nq := t.nq, pp := t.pp }))
      ∧ (r.holdTimer = false ∨ ms < 25 * 2 ^ r.settings.holdTimeout → exec (.holdTimeout p ms) s = .next s)
      ∧ (r.state = .linking → r.linkTimer = true → 2000 ≤ ms → ∃ t, exec (.linkTimeout p ms) s = .next t ∧ stalls .linkTimeout t)
      ∧ (r.state ≠ .linking ∨ r.linkTimer = false ∨ ms < 2000 → exec (.linkTimeout p ms) s = .next s)
      ∧ (r.state = .stalled → r.retryTimer = true → 8000 ≤ ms → ∃ t, exec (.retryTimeout p ms) s = .next t
          ∧ (t.port p).state = .linking ∧ (t.port p).linkCount = 0 ∧ (t.port p).linkTimer = true
          ∧ (t.port p).retryTimer = false
          ∧ (t.port p).nextPlace = some { cell := PanelCell.bytes s.fri.address p .link, fromContext := false }
          ∧ (t.port p).restoreDue = r.restoreDue ∧ (t.port p).settings = r.settings
          ∧ (s.full → t = { s with sg := { s.sg with segs := t.sg.segs }, rl := t.rl, pc := t.pc, nq := t.nq, pp := t.pp }))
      ∧ (r.state ≠ .stalled ∨ r.retryTimer = false ∨ ms < 8000 → exec (.retryTimeout p ms) s = .next s)
      ∧ (r.state = .ready ∨ r.state = .held → r.keepAlive = .running → 25 * 2 ^ r.settings.keepAlive ≤ ms →
          exec (.keepaliveTimeout p ms) s = .next (s.setPort p { r with keepAlive := .ranOut }))
      ∧ ((r.state ≠ .ready ∧ r.state ≠ .held) ∨ r.keepAlive ≠ .running ∨ ms < 25 * 2 ^ r.settings.keepAlive →
          exec (.keepaliveTimeout p ms) s = .next s))
  ∧ (∀ (e : PortEvent) (cs : List PortClaim),
      ((∀ c ∈ cs, c.event.kind ≠ e.kind) → addClaim e cs = cs ++ [{ event := e, occurrences := 1 }])
      ∧ ((∃ c ∈ cs, c.event.kind = e.kind) →
          addClaim e cs = cs.map fun c =>
            if c.event.kind = e.kind then { c with occurrences := min 255 (c.occurrences + 1) } else c))

/-! ## The Feed Ring Interface (chapter 8) -/

/-- R168, R169, R171, R176, R180, R181, R167: an arriving cell, by the first case of R168 that fits, also where it ends a feed
loss: the FEED_RESTORED claim is then made before or behind the cell (log 22), at once given a place that is free (log 6). That a
cell failing its header check while the feed is lost changes nothing is the model's reading (log 27); the slot sent stands in
`feedOut` (log 23). R172, R153, R194: a LIVE cell at each port of its channel's entry, and nowhere else; at a port a UNIT RESET under
way has already reset, where R194 says copied and R172 dropped, a free value chooses (log 34). -/
def Obligations.ArrivingCellsAreHandledByCase : Prop :=
  (∀ (s : State) (cell : List Byte) (claimFirst : Bool), cell.length = 80 →
      let arrives := exec (.feedCellArrival cell claimFirst) s
      let up : State := { s with fri := { s.fri with feed := .up, lossTimer := true, lossTime := none } }
      let sends := fun (t : State) (slot : List Byte) => ({ t with fri := { t.fri with feedOut := some slot } } : State)
      let takes := fun u : State =>
        ({ u with fri := { u.fri with intake := u.fri.intake ++ [cell], reservations := u.fri.reservations + 1 } } : State)
      let room := fun u : State => u.fri.intake.length < 2 ∧ u.fri.queue.length + u.fri.reservations < 16
      let ours : Prop := cellDest cell = s.fri.address.toNat
      let kind := cellKind cell
      let handled := fun u v : State =>
        (30 ≤ s.fri.address.toNat → v = sends u cell)
        ∧ (s.fri.address.toNat < 30 →
            (kind = 0 → v = State.fillSlot u)
            ∧ (kind ≠ 0 → ¬ ours → cellDest cell ≠ 31 → v = sends u cell)
            ∧ (kind = 1 ∨ kind = 2 → ours → room u → v = State.fillSlot (takes u))
            ∧ (kind = 1 ∨ kind = 2 → ours → ¬ room u → v = sends u (bounceCell cell))
            ∧ (kind = 1 → cellDest cell = 31 → room u → v = sends (takes u) cell)
            ∧ (kind = 1 → cellDest cell = 31 → ¬ room u → v = sends u cell)
            ∧ (kind = 2 → cellDest cell = 31 → v = sends u cell)
            ∧ (kind = 3 → ours → v = State.fillSlot (State.routeLive cell u))
            ∧ (kind = 3 → cellDest cell = 31 → v = sends (State.routeLive cell u) cell)
            ∧ (4 ≤ kind → ours ∨ cellDest cell = 31 → v = sends u cell))
      (headerOk cell = false → s.fri.feed = .up → arrives = .next (State.fillSlot s))
      ∧ (headerOk cell = false → s.fri.feed = .lost → arrives = .next s)
      ∧ (headerOk cell = true → (s.fri.feed = .up ∨ s.fri.lossTime = none ∨ 30 ≤ s.fri.address.toNat) →
          ∃ v, arrives = .next v ∧ handled up v)
      ∧ (∀ lost, headerOk cell = true → s.fri.feed = .lost → s.fri.lossTime = some lost → s.fri.address.toNat < 30 →
          (claimFirst = true → ∃ v, arrives = .next v ∧ handled (up.claimRestored (some lost)) v)
          ∧ (claimFirst = false → ∃ v, handled up v ∧ arrives = .next (v.claimRestored (some lost)))))
  ∧ (∀ (s : State) (lost : Nat), s.fri.address.toNat < 30 →
      let claim : RestoredClaim := match s.fri.restored with
        | none => { lossTime := lost, restoreTime := s.tb.runSeconds, lost := min 65535 (s.tb.runSeconds - lost),
                    occurrences := 1 }
        | some c => { lossTime := c.lossTime, restoreTime := s.tb.runSeconds,
                      lost := min 65535 (c.lost + (s.tb.runSeconds - lost)),
                      occurrences := min 255 (c.occurrences + 1) }
      (s.full → s.claimRestored (some lost) = { s with fri := { s.fri with restored := some claim } })
      ∧ (¬ s.full → s.oh.reset = none → s.firstClaim = none →
          let report : Report :=
            { kind := .feedRestored, built := s.tb.runSeconds,
              body := [.num 32 lost, .num 32 s.tb.runSeconds, .num 16 claim.lost, .num 8 1] }
          s.claimRestored (some lost) = { s with fri := { s.fri with queue := s.fri.queue ++ [.report report] } }))
  ∧ (∀ (s : State) (cell : List Byte),
      let t := State.routeLive cell s
      (63 < cellChannel cell → t = s)
      ∧ (cellChannel cell ≤ 63 →
          (∀ p, PortSet.has (s.routeAt (cellChannel cell)) p = false → t.port p = s.port p)
          ∧ ∀ p, PortSet.has (s.routeAt (cellChannel cell)) p = true →
              let isOpen : Prop := ((s.port p).state = .ready ∨ (s.port p).state = .held) ∧ (s.port p).settings.mode = .live
                ∧ s.ctx p = .idle ∧ (s.slot p).takeover = false
              (isOpen → (s.port p).live.length < 4 →
                t.port p = { s.port p with live := (s.port p).live ++ [cellPayload cell] })
              ∧ ((¬ isOpen ∧ ¬ s.taken .panelPorts) ∨ 4 ≤ (s.port p).live.length →
                t.port p = { s.port p with liveGap := true })
              ∧ (¬ isOpen → s.taken .panelPorts → (s.port p).live.length < 4 →
                t.port p = (let r : PortRec := { s.port p with liveChoices := (s.port p).liveChoices + 1 }
                  if Config.resetPortTakesLive s.epoch p.val (s.port p).liveChoices = true then
                    { r with live := r.live ++ [cellPayload cell] }
                  else { r with liveGap := true })))
      ∧ t = { s with pp := t.pp })

/-- R176, R180: a free slot, in the unit's own slots of a feed loss; and the loss itself. What leaves stands in `feedOut` (log
23); that the first of several cells bounced by UNIT RESETs leaves first is the model's choice, for states no run reaches (log 26).
R198, R169, R189, R196, 10.1, 10.2: the 80 bytes of the unit's own cells IDLE, REPLY and REPORT, with their common parts, and
of a BOUNCED one. -/
def Obligations.FreeSlotsCarryTheOldestCell : Prop :=
  (∀ s : State,
    (∀ b rest, s.fri.bounced = b :: rest →
      State.fillSlot s = { s with fri := { s.fri with bounced := rest, feedOut := some b } })
    ∧ (∀ m rest, s.fri.bounced = [] → s.fri.queue = m :: rest →
      State.fillSlot s = { s with fri := { s.fri with queue := rest, feedOut := some (m.cell s.fri.address) } })
    ∧ (s.fri.bounced = [] → s.fri.queue = [] →
      State.fillSlot s = { s with fri := { s.fri with feedOut := some (idleCell s.fri.address) } })
    ∧ (s.fri.feed = .up → exec .ownSlot s = .next s)
    ∧ (s.fri.feed = .lost → exec .ownSlot s = .next (State.fillSlot s))
    ∧ ∀ ms,
        (s.fri.feed = .up → s.fri.lossTimer = true → 250 ≤ ms → exec (.feedLoss ms) s = .next { s with
          fri := { s.fri with feed := .lost, lossTimer := false, lossTime := some s.tb.runSeconds } })
        ∧ (s.fri.feed = .lost ∨ s.fri.lossTimer = false ∨ ms < 250 → exec (.feedLoss ms) s = .next s))
  ∧ (∀ unit : BitVec 5,
      let own := fun (kind : Byte) (b : List Byte) =>
        b.length = 80 ∧ b.take 12 = [kind, 0, 30, BitVec.ofNat 8 unit.toNat, 0, 0, 0, 0, 0, 0, 0, 0]
          ∧ natOfBytes ((b.drop 12).take 2) = (checkWord (b.drop 16)).toNat
          ∧ natOfBytes ((b.drop 14).take 2) = (checkWord (b.take 14)).toNat
      (own 0 (idleCell unit) ∧ (idleCell unit).drop 16 = List.replicate 64 0)
      ∧ (∀ r : Reply,
          let b := OutMsg.cell unit (.reply r)
          own 4 b
          ∧ b.drop 16 = payloadOf ([.num 8 r.code, .num 16 r.tag, .num 8 r.desk, .num 1 (if r.unchecked then 1 else 0),
              .num 5 0, .num 2 r.outcome.code, .num 8 r.reason.code, .num 32 r.placed] ++ r.body)
          ∧ (r.code < 256 → r.tag < 65536 → r.desk < 256 → r.placed < 4294967296 →
              (b.drop 16).take 6 = [BitVec.ofNat 8 r.code, BitVec.ofNat 8 (r.tag / 256), BitVec.ofNat 8 r.tag,
                BitVec.ofNat 8 r.desk, BitVec.ofNat 8 ((if r.unchecked then 128 else 0) + r.outcome.code),
                BitVec.ofNat 8 r.reason.code]
              ∧ natOfBytes ((b.drop 22).take 4) = r.placed))
      ∧ ∀ r : Report,
          let b := OutMsg.cell unit (.report r)
          own 5 b
          ∧ b.drop 16 = payloadOf ([.num 8 r.kind.code, .num 32 r.built] ++ r.body)
          ∧ (r.built < 4294967296 →
              (b.drop 16).take 1 = [BitVec.ofNat 8 r.kind.code] ∧ natOfBytes ((b.drop 17).take 4) = r.built))
  ∧ ∀ cell : List Byte, cell.length = 80 →
      let b := bounceCell cell
      b.length = 80 ∧ b.take 2 = 6 :: cell.take 1
        ∧ (b.drop 2).take 12 = (cell.drop 2).take 12 ∧ b.drop 16 = cell.drop 16
        ∧ natOfBytes ((b.drop 14).take 2) = (checkWord (b.take 14)).toNat

/-- R174, R175, R114: ROUTE SET, ROUTE READ and PORTS TEST. Which fields carry a presence bit, and 1 for "on" of the halting
flag, are the model's choices (log 17). -/
def Obligations.RoutesAreSetAndPortsRead : Prop :=
  (∀ (s : State) (c : List Byte) (n : Nat) (ps : PortSet), s.passes 0x78 parseRouteSet c (n, ps) →
    let held := fun p : Port => s.fri.routes.any fun e => decide (e.1 ≠ n) && PortSet.has e.2 p
    (∀ p, PortSet.has ps p = true → held p = true → (∀ q, q < p → PortSet.has ps q = true → held q = false) →
      exec .routeSet s = .next (s.refused c .portInRoute [.num 4 p.val, .num 6 (s.otherChannel n p)]))
    ∧ ((∀ p, PortSet.has ps p = true → held p = false) → ∃ t, exec .routeSet s = .next t
        ∧ t.routeAt n = ps ∧ (∀ m, m ≠ n → t.routeAt m = s.routeAt m)
        ∧ t.fri = { s.replied c .accepted .none
                      [.num 6 n, .num 12 (s.routeAt n).reverse.toNat, .num 12 ps.reverse.toNat] with routes := t.fri.routes }
        ∧ t = { s with fri := t.fri }))
  ∧ (∀ (s : State) (c : List Byte) (n : Nat), s.passes 0x79 (parseOne 6 63) c n → exec .routeRead s = .next (s.answeredOnly c
      (((List.range (min 16 (64 - n))).map fun i => .num 12 (s.routeAt (n + i)).reverse.toNat)
        ++ (allPorts.map fun p => Fld.opt 6 ((s.fri.routes.find? fun e => PortSet.has e.2 p).map Prod.fst)).flatten)))
  ∧ ∀ (s : State) (c : List Byte), s.passes 0x56 parseNone c () → exec .portsTest s = .next (s.answeredOnly c
      (allPorts.map fun p =>
        [.num 3 (s.port p).state.code, .num 2 (s.port p).settings.mode.code, .num 2 (s.ctx p).code]
          ++ (match s.run? p with
              | none => []
              | some r => [.num 1 (if r.halting then 1 else 0), .num 5 r.reel])
          ++ (match (s.slot p).shown with
              | none => [.num 1 0]
              | some n => [.num 1 1, .num 5 n.key.desk, .num 16 n.key.tag, .num 1 n.form.code])).flatten)

/-- R178: the order of the classes, and the order within each. R193: an owner that has taken a UNIT RESET keeps its claims back
until the reset's reply is placed. -/
def Obligations.ClaimsAreServedInClassOrder : Prop :=
  ∀ s : State,
    let pending := fun p : Port => ¬ s.taken .playoutChannels ∧ ∃ r, s.ctx p = .statusPending r
    let marked := fun p : Port => ¬ s.taken .playoutChannels ∧ ∃ r m, s.ctx p = .running r ∧ r.mark = some m
    let lapsed := fun h : Hold => ¬ s.taken .seatTally ∧ h.state.isLive = false
    let closing := fun n : Notice => ¬ s.taken .noticeQueue ∧ n.state.isOpen = false ∧ n.claimed = true
    let freed := fun n : Nat => ¬ s.taken .segmentTable ∧ s.freedAt n ≠ none
    let claims := fun p : Port => ¬ s.taken .panelPorts ∧ (s.port p).claims ≠ []
    let restored : Prop := ¬ s.taken .feedRing ∧ s.fri.restored ≠ none
    let rolled : Prop := ¬ s.taken .timebase ∧ s.tb.dayRolled ≠ none
    let none1 : Prop := ∀ p, ¬ pending p
    let none2 : Prop := none1 ∧ ∀ p, ¬ marked p
    let none3 : Prop := none2 ∧ ∀ h ∈ s.sq.holds, ¬ lapsed h
    let none4 : Prop := none3 ∧ ∀ n ∈ s.nq.notices, ¬ closing n
    let none5 : Prop := none4 ∧ ∀ n, ¬ freed n
    let none6 : Prop := none5 ∧ ∀ p, ¬ claims p
    Tbl.wf s.sg.segs = true →
    (∀ p, pending p → (∀ q, q < p → ¬ pending q) → s.firstClaim = some (.status p))
    ∧ (∀ p, none1 → marked p → (∀ q, q < p → ¬ marked q) → s.firstClaim = some (.mark p))
    ∧ (∀ front h back, none2 → s.sq.holds = front ++ h :: back → lapsed h → (∀ k ∈ front, ¬ lapsed k) →
        s.firstClaim = some (.lapse h.key))
    ∧ (∀ front n back, none3 → s.nq.notices = front ++ n :: back → closing n → (∀ k ∈ front, ¬ closing k) →
        s.firstClaim = some (.closing n.key))
    ∧ (∀ n, none4 → freed n → (∀ m, m < n → ¬ freed m) → s.firstClaim = some (.freed n))
    ∧ (∀ p, none5 → claims p → (∀ q, q < p → ¬ claims q) → s.firstClaim = some (.portEvent p))
    ∧ (none6 → restored → s.firstClaim = some .restored)
    ∧ (none6 → ¬ restored → rolled → s.firstClaim = some .dayRolled)
    ∧ (none6 → ¬ restored → ¬ rolled → s.firstClaim = none)

/-- R178, R193 and the report rows: a report row gives a free place to the first waiting claim, when it is one of its kind. It
changes nothing where that claim is of another kind or none waits (the model's choice, logs 2 and 6), where no place is free (R178),
and behind the FRI's part of a UNIT RESET (R193). Each report carries what its chapter gives, its widths by log 17. -/
def Obligations.ReportRowsServeTheFirstClaim : Prop :=
  ∀ s : State,
    let queued := fun (kind : ReportKind) (body : List Fld) =>
      ({ s with fri := { s.fri with queue := s.fri.queue ++ [.report { kind := kind, built := s.tb.runSeconds, body := body }] } }
        : State)
    let firstKind : Option ReportKind := match s.firstClaim with
      | some (.status _) => some .reelEnd
      | some (.mark _) => some .reelMark
      | some (.lapse _) => some .holdLapsed
      | some (.closing _) => some .noticeClosed
      | some (.freed _) => some .segmentFreed
      | some (.portEvent p) => (s.port p).claims.head?.map fun c => match c.event with
        | .stalled _ _ _ => .portStalled
        | .restored _ _ _ => .portRestored
        | .woken _ _ _ => .panelWoken
      | some .restored => some .feedRestored
      | some .dayRolled => some .dayRolled
      | none => none
    let rows : List (Instr × ReportKind) :=
      [(.reelEnd, .reelEnd), (.reelMark, .reelMark), (.holdLapsed, .holdLapsed), (.noticeClosed, .noticeClosed),
       (.segmentFreed, .segmentFreed), (.portStalled, .portStalled), (.portRestored, .portRestored),
       (.panelWoken, .panelWoken), (.feedRestored, .feedRestored), (.dayRolled, .dayRolled)]
    (∀ e ∈ rows, s.full ∨ s.taken .feedRing ∨ firstKind ≠ some e.2 → exec e.1 s = .next s)
    ∧ (¬ s.full → ¬ s.taken .feedRing →
      (∀ p r, s.firstClaim = some (.status p) → s.ctx p = .statusPending r →
        let body :=
          [.num 4 r.port.val, .num 5 r.reel, .num 16 r.tag,
           .num 3 (match r.reason with
            | .ended => 0 | .halted => 1 | .allPassed => 2 | .segmentNotReady => 3 | .keyMismatch => 4 | .portStalled => 5
            | .portReset => 6)]
            ++ Fld.opt 5 r.lastWord ++ [.num 16 r.residual, .num 16 r.passes] ++ Fld.opt 5 r.failedWord
            ++ Fld.opt 5 r.lostMark ++ [.num 32 r.endTime]
        exec .reelEnd s = .next ((queued .reelEnd body).setCtx p .idle))
      ∧ (∀ p r m, s.firstClaim = some (.mark p) → s.ctx p = .running r → r.mark = some m →
        exec .reelMark s = .next ((queued .reelMark
          [.num 4 p.val, .num 5 r.reel, .num 16 r.tag, .num 5 m.wordIndex, .num 16 m.passes, .num 32 m.runSecond,
           .num 8 m.overrun]).setCtx p (.running { r with mark := none })))
      ∧ (∀ h cause time, s.firstClaim = some (.lapse h.key) → h ∈ s.sq.holds → h.state = .lapsed cause time → s.holdsLaw →
        let t := queued .holdLapsed
          [.num 5 h.key.desk, .num 16 h.key.tag, .num 7 h.showNo, .num 5 h.seats, .num 2 cause.code, .num 32 time,
           .num 32 h.deadline]
        exec .holdLapsed s = .next { t with sq := { holds := s.sq.holds.filter fun g => decide (g.key ≠ h.key) } })
      ∧ (∀ n time, s.firstClaim = some (.closing n.key) → n ∈ s.nq.notices → n.state = .closing time → s.noticesLaw →
        let t := queued .noticeClosed
          ([.num 5 n.key.desk, .num 16 n.key.tag, .num 1 0, .num 2 n.priority, .num 1 n.form.code,
            .num 12 n.shownOn.reverse.toNat] ++ Fld.opt 32 n.firstShown ++ [.num 32 time] ++ Fld.binding n.binding)
        exec .noticeClosed s = .next
          { t with nq := { s.nq with notices := s.nq.notices.filter fun m => decide (m.key ≠ n.key) } })
      ∧ (∀ n c, s.firstClaim = some (.freed n) → s.freedAt n = some c → ∃ t, exec .segmentFreed s = .next t
          ∧ t.freedAt n = none ∧ (∀ m, t.segAt m = s.segAt m) ∧ (∀ m, m ≠ n → t.freedAt m = s.freedAt m)
          ∧ t = (let u := queued .segmentFreed
                  [.num 10 n, .num 4 c.key, .num 18 c.firstPage, .num 15 c.pages, .num 32 c.runSecond]
                { u with sg := { s.sg with segs := t.sg.segs } }))
      ∧ (∀ p c rest, s.firstClaim = some (.portEvent p) → (s.port p).claims = c :: rest →
        let t := fun own => (queued c.event.kind
          ([.num 4 p.val, .num 8 c.occurrences, .num 3 (s.port p).state.code, .num 2 (s.port p).settings.mode.code]
            ++ own)).setPort p { s.port p with claims := rest }
        (∀ cause stalledFrom time, c.event = .stalled cause stalledFrom time →
          exec .portStalled s = .next (t [.num 1 cause.code, .num 2 stalledFrom.code, .num 32 time]))
        ∧ (∀ stallTime restoreTime retries, c.event = .restored stallTime restoreTime retries →
          exec .portRestored s = .next (t [.num 32 stallTime, .num 32 restoreTime, .num 8 retries]))
        ∧ (∀ key priority time, c.event = .woken key priority time →
          exec .panelWoken s = .next (t [.num 5 key.desk, .num 16 key.tag, .num 2 priority, .num 32 time])))
      ∧ (∀ c, s.firstClaim = some .restored → s.fri.restored = some c →
        let t := queued .feedRestored [.num 32 c.lossTime, .num 32 c.restoreTime, .num 16 c.lost, .num 8 c.occurrences]
        exec .feedRestored s = .next { t with fri := { t.fri with restored := none } })
      ∧ (∀ c, s.firstClaim = some .dayRolled → s.tb.dayRolled = some c →
        let t := queued .dayRolled [.num 32 c.runSecond, .num 8 c.rolls]
        exec .dayRolled s = .next { t with tb := { s.tb with dayRolled := none } }))

/-! ## The Order Handler (chapter 9) -/

/-- R192: HELLO. That the hold table, the notice table and the reply queue are two counts each is the model's choice (log 17). -/
def Obligations.HelloReportsTheUnit : Prop :=
  ∀ (s : State) (c : List Byte), s.passes 0x01 parseNone c () →
    let n := fun (b : Bool) => if b then 1 else 0
    exec .hello s = .next (s.answeredOnly c
      [.num 5 s.fri.address.toNat, .num 16 0x0C12, .num 8 1,
       .num 2 (match s.oh.cause with | .power => 1 | .unitReset => 2),
       .num 2 (match s.oh.previous with | none => 0 | some .power => 1 | some .unitReset => 2), .num 32 s.oh.resetTime,
       .num 1 (n (decide (s.tb.clock ≠ .unset))), .num 11 s.tb.clock.minute, .num 6 s.tb.clock.second,
       .num 1 (n (decide (s.fri.feed = .lost))), .num 32 s.tb.runSeconds, .num 7 s.st.shows.length,
       .num 7 s.sq.holds.length, .num 7 (s.sq.holds.filter fun h => !h.state.isLive).length,
       .num 5 s.nq.notices.length, .num 5 (s.nq.notices.filter fun m => !m.state.isOpen).length,
       .num 11 (s.sg.segs.filter fun e => e.2.freed?.isNone).length,
       .num 5 s.fri.queue.length, .num 5 s.fri.reservations])

/-- R191, R193: UNIT RESET hands the reset to every owner and updates the reset-cause record. R4, R11, R31, R50, R85, R87, R117,
R139, R165, R183, R193: what each owner sets when it takes the reset, in any order of the owners, the last one too; and the reply
the last one lets be placed. That the FRI is one of the owners (log 9), that what was on its way between the blocks is gone with
the reply (log 10), the presence bit of the bounced kind (log 17), the link count of a port that becomes OFF (log 32), and that
neither the slots the Notice Queue empties nor a relinking that leaves the shown notice touch a run not yet reset (log 39), and
that the Seat Tally's part leaves the shows' held counts (log 41), and that a cell which an earlier reset bounced and which still
waits stays in front of the one bounced now (log 26, in states no run reaches), are the model's choices. -/
def Obligations.UnitResetIsTakenByEveryOwner : Prop :=
  (∀ (s : State) (c : List Byte), s.passes 0x02 parseNone c () →
      exec .unitReset s = .next { s with
        oh := { cause := .unitReset, previous := some s.oh.cause, resetTime := s.tb.runSeconds,
                reset := some { owners := [.timebase, .showTable, .seatTally, .boardComposer, .segmentTable, .reelTable,
                                           .playoutChannels, .noticeQueue, .panelPorts, .feedRing],
                                discarded := 0, bouncedKind := none } } })
  ∧ (∀ (s : State) (o : Owner) (x : ResetProgress), s.oh.reset = some x → o ∈ x.owners →
      let others := { x with owners := x.owners.erase o }
      let s' : State := { s with oh := { s.oh with reset := some others } }
      let outOfService := fun p : Port => (s.port p).state = .off ∨ (s.port p).state = .draining
      ∃ u : State,
        (o = .timebase → u = { s' with tb := { s.tb with clock := .unset, dayRolled := none } })
        ∧ (o = .showTable → u = { s' with st := { titles := [], shows := [] } })
        ∧ (o = .seatTally → u = { s' with sq := { holds := [] } })
        ∧ (o = .boardComposer → u = { s' with bc := { boards := Vector.replicate 12 Board.initial } })
        ∧ (o = .segmentTable → u = { s' with sg := { s.sg with segs := u.sg.segs } }
            ∧ (Tbl.wf s.sg.segs = true → (∀ n, u.freedAt n = none)
              ∧ ∀ n, u.segAt n = (match s.segAt n with
                  | some g => if g.state = .ready then some { g with pins := 0 } else none
                  | none => none)))
        ∧ (o = .reelTable → u = { s' with rl := { reels := [] } })
        ∧ (o = .playoutChannels → u = { s' with pc := { contexts := Vector.replicate 12 .idle } })
        ∧ (o = .noticeQueue → u = { s' with nq := { notices := [], slots := Vector.replicate 12 Slot.initial } })
        ∧ (o = .feedRing → u = { s' with
            fri := { s.fri with intake := s.fri.intake.take 1,
                                bounced := s.fri.bounced ++ (s.fri.intake.drop 1).map bounceCell, queue := [],
                                reservations := 1, routes := [], restored := none }
            oh := { s.oh with reset := some { others with
              discarded := s.fri.queue.length, bouncedKind := (s.fri.intake.drop 1).head?.map cellKind } } })
        ∧ (o = .panelPorts →
            (∀ p, (u.port p).state = (if outOfService p then .off else .linking)
              ∧ (u.port p).settings = { mode := .live, gap := 0, spacing := 3, holdTimeout := 3, keepAlive := 4,
                                        slipCheck := true, wakeLevel := 2 }
              ∧ (u.port p).sendingPlace = none ∧ (u.port p).live = [] ∧ (u.port p).liveGap = true
              ∧ (u.port p).spacing = 0 ∧ (u.port p).darkOwed = false ∧ (u.port p).restoreDue = none
              ∧ (u.port p).holdTimer = false ∧ (u.port p).retryTimer = false ∧ (u.port p).keepAlive = .stopped
              ∧ (u.port p).nextPlace = (if outOfService p then none
                  else some { cell := PanelCell.bytes s.fri.address p .link, fromContext := false })
              ∧ (u.port p).linkTimer = decide (¬ outOfService p) ∧ (u.port p).linkCount = 0
              ∧ (u.port p).claims = [] ∧ (u.port p).hold = (s.port p).hold)
            ∧ (∀ p r, s.run? p = some r → r.halting = true → (s.port p).contextStaged = true → u.run? p = none)
            ∧ ((∀ p r, s.run? p = some r → r.halting = false) → u = { s' with pc := u.pc, nq := u.nq, pp := u.pp })
            ∧ (s.full ∨ s.taken .feedRing →
                u = { s' with sg := { s.sg with segs := u.sg.segs }, rl := u.rl, pc := u.pc, nq := u.nq, pp := u.pp }
                ∧ ∀ p r, s.run? p = some r → r.halting = false → ∃ v, u.run? p = some v
                    ∧ v = { r with suspended := v.suspended, residual := v.residual, cutDue := v.cutDue }
                    ∧ ((u.slot p).shown = (s.slot p).shown → v = r))
            ∧ u = { s' with
                tb := { s.tb with dayRolled := u.tb.dayRolled }, sq := u.sq, sg := { s.sg with segs := u.sg.segs }, rl := u.rl
                pc := u.pc, nq := u.nq, pp := u.pp
                fri := { s.fri with queue := u.fri.queue, restored := u.fri.restored } })
        ∧ (others.owners ≠ [] → exec (.resetTakenByOwner o) s = .next u)
        ∧ (∀ c rest, others.owners = [] → s.fri.intake = c :: rest → ∃ y, u.oh.reset = some y
          ∧ exec (.resetTakenByOwner o) s = .next { u with
              oh := { s.oh with reset := none }
              paths := { s.paths with showMinutes := [], boardMinutes := [], endNotices := [] }
              fri := { u.fri with
                queue := u.fri.queue ++ [.reply (s.replyFor c false .accepted .none
                  ([.num 2 s.oh.cause.code, .num 2 (previousCode s.oh.previous), .num 32 s.oh.resetTime, .num 5 y.discarded]
                    ++ Fld.opt 2 y.bouncedKind))]
                reservations := u.fri.reservations - 1, intake := u.fri.intake.tail } }))

/-! ## What every step keeps -/

/-- R7, R10, R68, R69, R87, R173: every table and the content memory keep their canonical form. R177, R173: the laws of the
reply queue and of routes. R2, R10: the ranges of the clock and the limit of every show's day. -/
def Obligations.TableLawsKept : Prop :=
  (∀ s t : State, s.tablesLaw → step s = .next t → t.tablesLaw)
  ∧ (∀ s t : State, s.replyLaw → step s = .next t → t.replyLaw)
  ∧ (∀ s t : State, s.routesLaw → step s = .next t → t.routesLaw)
  ∧ (∀ s t : State, s.dayLaw → step s = .next t → t.dayLaw)

/-- R27, R31, R32: the law of the tally, the law of held seats and the law of hold keys. -/
def Obligations.TallyLawKept : Prop :=
  ∀ s t : State, s.tablesLaw → s.tallyLaw → step s = .next t → t.tallyLaw

/-- R52, R54, R55: the boards follow the records. -/
def Obligations.BoardsFollowTheShows : Prop :=
  ∀ s t : State, s.tablesLaw → s.boardsLaw → step s = .next t → t.boardsLaw

/-- R72: the law of pages. R81, R118: the law of pins and the law of notice keys. -/
def Obligations.PagesAndPinsLawsKept : Prop :=
  (∀ s t : State, s.tablesLaw → s.pagesLaw → step s = .next t → t.pagesLaw)
  ∧ (∀ s t : State, s.tablesLaw → s.pinsLaw → step s = .next t → t.pinsLaw)

/-- R89: the law of binding. R105: the law of the running context. -/
def Obligations.BindingAndRunningLawsKept : Prop :=
  (∀ s t : State, s.bindingLaw → step s = .next t → t.bindingLaw)
  ∧ (∀ s t : State, s.runningLaw → step s = .next t → t.runningLaw)

/-- R125: the law of notice selection. -/
def Obligations.SelectionLawKept : Prop :=
  ∀ s t : State, s.selectionLaw → step s = .next t → t.selectionLaw

/-- Every law above holds right after reset. -/
def Obligations.LawsHoldAtReset : Prop :=
  State.reset.replyLaw ∧ State.reset.routesLaw ∧ State.reset.tablesLaw ∧ State.reset.dayLaw ∧ State.reset.tallyLaw
    ∧ State.reset.boardsLaw ∧ State.reset.pagesLaw ∧ State.reset.pinsLaw ∧ State.reset.bindingLaw ∧ State.reset.runningLaw
    ∧ State.reset.selectionLaw
end

