-- ==== Sys2Proof/Laws/State.lean ====
section
/-! SUPPORT. What each named update of State leaves alone, and what it writes: true by definition, so that no proof unfolds a
record update. -/
namespace Sys2Proof.Machine

@[simp] theorem State.setPort_frame (s : State) (p : Port) (r : PortRec) :
    (s.setPort p r).tb = s.tb ∧ (s.setPort p r).paths = s.paths ∧ (s.setPort p r).st = s.st
      ∧ (s.setPort p r).sq = s.sq ∧ (s.setPort p r).bc = s.bc ∧ (s.setPort p r).sg = s.sg ∧ (s.setPort p r).rl = s.rl
      ∧ (s.setPort p r).pc = s.pc ∧ (s.setPort p r).nq = s.nq ∧ (s.setPort p r).fri = s.fri
      ∧ (s.setPort p r).oh = s.oh ∧ (s.setPort p r).epoch = s.epoch ∧ (s.setPort p r).pending = s.pending
      ∧ (s.setPort p r).now = s.now ∧ (s.setPort p r).showAt = s.showAt ∧ (s.setPort p r).titleAt = s.titleAt
      ∧ (s.setPort p r).holdAt = s.holdAt ∧ (s.setPort p r).board = s.board ∧ (s.setPort p r).segAt = s.segAt
      ∧ (s.setPort p r).freedAt = s.freedAt ∧ (s.setPort p r).reelAt = s.reelAt ∧ (s.setPort p r).ctx = s.ctx
      ∧ (s.setPort p r).slot = s.slot ∧ (s.setPort p r).noticeAt = s.noticeAt ∧ (s.setPort p r).routeAt = s.routeAt
      ∧ (s.setPort p r).resetTaken = s.resetTaken :=
  ⟨rfl, rfl, rfl, rfl, rfl, rfl, rfl, rfl, rfl, rfl, rfl, rfl, rfl, rfl, rfl, rfl, rfl, rfl, rfl, rfl, rfl, rfl, rfl, rfl, rfl, rfl⟩

@[simp] theorem State.setCtx_frame (s : State) (p : Port) (c : Context) :
    (s.setCtx p c).tb = s.tb ∧ (s.setCtx p c).paths = s.paths ∧ (s.setCtx p c).st = s.st ∧ (s.setCtx p c).sq = s.sq
      ∧ (s.setCtx p c).bc = s.bc ∧ (s.setCtx p c).sg = s.sg ∧ (s.setCtx p c).rl = s.rl ∧ (s.setCtx p c).nq = s.nq
      ∧ (s.setCtx p c).pp = s.pp ∧ (s.setCtx p c).fri = s.fri ∧ (s.setCtx p c).oh = s.oh
      ∧ (s.setCtx p c).epoch = s.epoch ∧ (s.setCtx p c).pending = s.pending ∧ (s.setCtx p c).now = s.now
      ∧ (s.setCtx p c).showAt = s.showAt ∧ (s.setCtx p c).titleAt = s.titleAt ∧ (s.setCtx p c).holdAt = s.holdAt
      ∧ (s.setCtx p c).board = s.board ∧ (s.setCtx p c).segAt = s.segAt ∧ (s.setCtx p c).freedAt = s.freedAt
      ∧ (s.setCtx p c).reelAt = s.reelAt ∧ (s.setCtx p c).slot = s.slot ∧ (s.setCtx p c).noticeAt = s.noticeAt
      ∧ (s.setCtx p c).port = s.port ∧ (s.setCtx p c).routeAt = s.routeAt ∧ (s.setCtx p c).resetTaken = s.resetTaken :=
  ⟨rfl, rfl, rfl, rfl, rfl, rfl, rfl, rfl, rfl, rfl, rfl, rfl, rfl, rfl, rfl, rfl, rfl, rfl, rfl, rfl, rfl, rfl, rfl, rfl, rfl, rfl⟩

@[simp] theorem State.setSlot_frame (s : State) (p : Port) (x : Slot) :
    (s.setSlot p x).tb = s.tb ∧ (s.setSlot p x).paths = s.paths ∧ (s.setSlot p x).st = s.st
      ∧ (s.setSlot p x).sq = s.sq ∧ (s.setSlot p x).bc = s.bc ∧ (s.setSlot p x).sg = s.sg ∧ (s.setSlot p x).rl = s.rl
      ∧ (s.setSlot p x).pc = s.pc ∧ (s.setSlot p x).pp = s.pp ∧ (s.setSlot p x).fri = s.fri
      ∧ (s.setSlot p x).oh = s.oh ∧ (s.setSlot p x).epoch = s.epoch ∧ (s.setSlot p x).pending = s.pending
      ∧ (s.setSlot p x).now = s.now ∧ (s.setSlot p x).showAt = s.showAt ∧ (s.setSlot p x).titleAt = s.titleAt
      ∧ (s.setSlot p x).holdAt = s.holdAt ∧ (s.setSlot p x).board = s.board ∧ (s.setSlot p x).segAt = s.segAt
      ∧ (s.setSlot p x).freedAt = s.freedAt ∧ (s.setSlot p x).reelAt = s.reelAt ∧ (s.setSlot p x).ctx = s.ctx
      ∧ (s.setSlot p x).port = s.port ∧ (s.setSlot p x).routeAt = s.routeAt
      ∧ (s.setSlot p x).resetTaken = s.resetTaken :=
  ⟨rfl, rfl, rfl, rfl, rfl, rfl, rfl, rfl, rfl, rfl, rfl, rfl, rfl, rfl, rfl, rfl, rfl, rfl, rfl, rfl, rfl, rfl, rfl, rfl, rfl⟩

@[simp] theorem State.setBoard_frame (s : State) (p : Port) (b : Board) :
    (s.setBoard p b).tb = s.tb ∧ (s.setBoard p b).paths = s.paths ∧ (s.setBoard p b).st = s.st
      ∧ (s.setBoard p b).sq = s.sq ∧ (s.setBoard p b).sg = s.sg ∧ (s.setBoard p b).rl = s.rl
      ∧ (s.setBoard p b).pc = s.pc ∧ (s.setBoard p b).nq = s.nq ∧ (s.setBoard p b).pp = s.pp
      ∧ (s.setBoard p b).fri = s.fri ∧ (s.setBoard p b).oh = s.oh ∧ (s.setBoard p b).epoch = s.epoch
      ∧ (s.setBoard p b).pending = s.pending ∧ (s.setBoard p b).now = s.now ∧ (s.setBoard p b).showAt = s.showAt
      ∧ (s.setBoard p b).titleAt = s.titleAt ∧ (s.setBoard p b).holdAt = s.holdAt ∧ (s.setBoard p b).segAt = s.segAt
      ∧ (s.setBoard p b).freedAt = s.freedAt ∧ (s.setBoard p b).reelAt = s.reelAt ∧ (s.setBoard p b).ctx = s.ctx
      ∧ (s.setBoard p b).slot = s.slot ∧ (s.setBoard p b).noticeAt = s.noticeAt ∧ (s.setBoard p b).port = s.port
      ∧ (s.setBoard p b).routeAt = s.routeAt ∧ (s.setBoard p b).resetTaken = s.resetTaken :=
  ⟨rfl, rfl, rfl, rfl, rfl, rfl, rfl, rfl, rfl, rfl, rfl, rfl, rfl, rfl, rfl, rfl, rfl, rfl, rfl, rfl, rfl, rfl, rfl, rfl, rfl, rfl⟩

@[simp] theorem State.setShow_frame (s : State) (n : Nat) (x : Show) :
    (s.setShow n x).tb = s.tb ∧ (s.setShow n x).paths = s.paths ∧ (s.setShow n x).sq = s.sq
      ∧ (s.setShow n x).bc = s.bc ∧ (s.setShow n x).sg = s.sg ∧ (s.setShow n x).rl = s.rl ∧ (s.setShow n x).pc = s.pc
      ∧ (s.setShow n x).nq = s.nq ∧ (s.setShow n x).pp = s.pp ∧ (s.setShow n x).fri = s.fri
      ∧ (s.setShow n x).oh = s.oh ∧ (s.setShow n x).epoch = s.epoch ∧ (s.setShow n x).pending = s.pending
      ∧ (s.setShow n x).now = s.now ∧ (s.setShow n x).holdAt = s.holdAt ∧ (s.setShow n x).board = s.board
      ∧ (s.setShow n x).segAt = s.segAt ∧ (s.setShow n x).freedAt = s.freedAt ∧ (s.setShow n x).reelAt = s.reelAt
      ∧ (s.setShow n x).ctx = s.ctx ∧ (s.setShow n x).slot = s.slot ∧ (s.setShow n x).noticeAt = s.noticeAt
      ∧ (s.setShow n x).port = s.port ∧ (s.setShow n x).routeAt = s.routeAt
      ∧ (s.setShow n x).resetTaken = s.resetTaken :=
  ⟨rfl, rfl, rfl, rfl, rfl, rfl, rfl, rfl, rfl, rfl, rfl, rfl, rfl, rfl, rfl, rfl, rfl, rfl, rfl, rfl, rfl, rfl, rfl, rfl, rfl⟩

@[simp] theorem State.clearShow_frame (s : State) (n : Nat) :
    (s.clearShow n).tb = s.tb ∧ (s.clearShow n).paths = s.paths ∧ (s.clearShow n).sq = s.sq
      ∧ (s.clearShow n).bc = s.bc ∧ (s.clearShow n).sg = s.sg ∧ (s.clearShow n).rl = s.rl ∧ (s.clearShow n).pc = s.pc
      ∧ (s.clearShow n).nq = s.nq ∧ (s.clearShow n).pp = s.pp ∧ (s.clearShow n).fri = s.fri
      ∧ (s.clearShow n).oh = s.oh ∧ (s.clearShow n).epoch = s.epoch ∧ (s.clearShow n).pending = s.pending
      ∧ (s.clearShow n).now = s.now ∧ (s.clearShow n).holdAt = s.holdAt ∧ (s.clearShow n).board = s.board
      ∧ (s.clearShow n).segAt = s.segAt ∧ (s.clearShow n).freedAt = s.freedAt ∧ (s.clearShow n).reelAt = s.reelAt
      ∧ (s.clearShow n).ctx = s.ctx ∧ (s.clearShow n).slot = s.slot ∧ (s.clearShow n).noticeAt = s.noticeAt
      ∧ (s.clearShow n).port = s.port ∧ (s.clearShow n).routeAt = s.routeAt
      ∧ (s.clearShow n).resetTaken = s.resetTaken :=
  ⟨rfl, rfl, rfl, rfl, rfl, rfl, rfl, rfl, rfl, rfl, rfl, rfl, rfl, rfl, rfl, rfl, rfl, rfl, rfl, rfl, rfl, rfl, rfl, rfl, rfl⟩

@[simp] theorem State.setSeg_frame (s : State) (n : Nat) (r : SegRecord) :
    (s.setSeg n r).tb = s.tb ∧ (s.setSeg n r).paths = s.paths ∧ (s.setSeg n r).st = s.st ∧ (s.setSeg n r).sq = s.sq
      ∧ (s.setSeg n r).bc = s.bc ∧ (s.setSeg n r).rl = s.rl ∧ (s.setSeg n r).pc = s.pc ∧ (s.setSeg n r).nq = s.nq
      ∧ (s.setSeg n r).pp = s.pp ∧ (s.setSeg n r).fri = s.fri ∧ (s.setSeg n r).oh = s.oh
      ∧ (s.setSeg n r).epoch = s.epoch ∧ (s.setSeg n r).pending = s.pending ∧ (s.setSeg n r).now = s.now
      ∧ (s.setSeg n r).showAt = s.showAt ∧ (s.setSeg n r).titleAt = s.titleAt ∧ (s.setSeg n r).holdAt = s.holdAt
      ∧ (s.setSeg n r).board = s.board ∧ (s.setSeg n r).reelAt = s.reelAt ∧ (s.setSeg n r).ctx = s.ctx
      ∧ (s.setSeg n r).slot = s.slot ∧ (s.setSeg n r).noticeAt = s.noticeAt ∧ (s.setSeg n r).port = s.port
      ∧ (s.setSeg n r).routeAt = s.routeAt ∧ (s.setSeg n r).resetTaken = s.resetTaken :=
  ⟨rfl, rfl, rfl, rfl, rfl, rfl, rfl, rfl, rfl, rfl, rfl, rfl, rfl, rfl, rfl, rfl, rfl, rfl, rfl, rfl, rfl, rfl, rfl, rfl, rfl⟩

@[simp] theorem State.emptySeg_frame (s : State) (n : Nat) :
    (s.emptySeg n).tb = s.tb ∧ (s.emptySeg n).paths = s.paths ∧ (s.emptySeg n).st = s.st ∧ (s.emptySeg n).sq = s.sq
      ∧ (s.emptySeg n).bc = s.bc ∧ (s.emptySeg n).rl = s.rl ∧ (s.emptySeg n).pc = s.pc ∧ (s.emptySeg n).nq = s.nq
      ∧ (s.emptySeg n).pp = s.pp ∧ (s.emptySeg n).fri = s.fri ∧ (s.emptySeg n).oh = s.oh
      ∧ (s.emptySeg n).epoch = s.epoch ∧ (s.emptySeg n).pending = s.pending ∧ (s.emptySeg n).now = s.now
      ∧ (s.emptySeg n).showAt = s.showAt ∧ (s.emptySeg n).titleAt = s.titleAt ∧ (s.emptySeg n).holdAt = s.holdAt
      ∧ (s.emptySeg n).board = s.board ∧ (s.emptySeg n).reelAt = s.reelAt ∧ (s.emptySeg n).ctx = s.ctx
      ∧ (s.emptySeg n).slot = s.slot ∧ (s.emptySeg n).noticeAt = s.noticeAt ∧ (s.emptySeg n).port = s.port
      ∧ (s.emptySeg n).routeAt = s.routeAt ∧ (s.emptySeg n).resetTaken = s.resetTaken :=
  ⟨rfl, rfl, rfl, rfl, rfl, rfl, rfl, rfl, rfl, rfl, rfl, rfl, rfl, rfl, rfl, rfl, rfl, rfl, rfl, rfl, rfl, rfl, rfl, rfl, rfl⟩

@[simp] theorem State.setReel_frame (s : State) (n : Nat) (r : Reel) :
    (s.setReel n r).tb = s.tb ∧ (s.setReel n r).paths = s.paths ∧ (s.setReel n r).st = s.st
      ∧ (s.setReel n r).sq = s.sq ∧ (s.setReel n r).bc = s.bc ∧ (s.setReel n r).sg = s.sg ∧ (s.setReel n r).pc = s.pc
      ∧ (s.setReel n r).nq = s.nq ∧ (s.setReel n r).pp = s.pp ∧ (s.setReel n r).fri = s.fri
      ∧ (s.setReel n r).oh = s.oh ∧ (s.setReel n r).epoch = s.epoch ∧ (s.setReel n r).pending = s.pending
      ∧ (s.setReel n r).now = s.now ∧ (s.setReel n r).showAt = s.showAt ∧ (s.setReel n r).titleAt = s.titleAt
      ∧ (s.setReel n r).holdAt = s.holdAt ∧ (s.setReel n r).board = s.board ∧ (s.setReel n r).segAt = s.segAt
      ∧ (s.setReel n r).freedAt = s.freedAt ∧ (s.setReel n r).ctx = s.ctx ∧ (s.setReel n r).slot = s.slot
      ∧ (s.setReel n r).noticeAt = s.noticeAt ∧ (s.setReel n r).port = s.port ∧ (s.setReel n r).routeAt = s.routeAt
      ∧ (s.setReel n r).resetTaken = s.resetTaken :=
  ⟨rfl, rfl, rfl, rfl, rfl, rfl, rfl, rfl, rfl, rfl, rfl, rfl, rfl, rfl, rfl, rfl, rfl, rfl, rfl, rfl, rfl, rfl, rfl, rfl, rfl, rfl⟩

@[simp] theorem State.setRoute_frame (s : State) (n : Nat) (ps : PortSet) :
    (s.setRoute n ps).tb = s.tb ∧ (s.setRoute n ps).paths = s.paths ∧ (s.setRoute n ps).st = s.st
      ∧ (s.setRoute n ps).sq = s.sq ∧ (s.setRoute n ps).bc = s.bc ∧ (s.setRoute n ps).sg = s.sg
      ∧ (s.setRoute n ps).rl = s.rl ∧ (s.setRoute n ps).pc = s.pc ∧ (s.setRoute n ps).nq = s.nq
      ∧ (s.setRoute n ps).pp = s.pp ∧ (s.setRoute n ps).oh = s.oh ∧ (s.setRoute n ps).epoch = s.epoch
      ∧ (s.setRoute n ps).pending = s.pending ∧ (s.setRoute n ps).now = s.now ∧ (s.setRoute n ps).showAt = s.showAt
      ∧ (s.setRoute n ps).titleAt = s.titleAt ∧ (s.setRoute n ps).holdAt = s.holdAt
      ∧ (s.setRoute n ps).board = s.board ∧ (s.setRoute n ps).segAt = s.segAt ∧ (s.setRoute n ps).freedAt = s.freedAt
      ∧ (s.setRoute n ps).reelAt = s.reelAt ∧ (s.setRoute n ps).ctx = s.ctx ∧ (s.setRoute n ps).slot = s.slot
      ∧ (s.setRoute n ps).noticeAt = s.noticeAt ∧ (s.setRoute n ps).port = s.port
      ∧ (s.setRoute n ps).resetTaken = s.resetTaken :=
  ⟨rfl, rfl, rfl, rfl, rfl, rfl, rfl, rfl, rfl, rfl, rfl, rfl, rfl, rfl, rfl, rfl, rfl, rfl, rfl, rfl, rfl, rfl, rfl, rfl, rfl, rfl⟩

@[simp] theorem State.pushFront_frame (s : State) (c : Instr) :
    (s.pushFront c).tb = s.tb ∧ (s.pushFront c).paths = s.paths ∧ (s.pushFront c).st = s.st
      ∧ (s.pushFront c).sq = s.sq ∧ (s.pushFront c).bc = s.bc ∧ (s.pushFront c).sg = s.sg ∧ (s.pushFront c).rl = s.rl
      ∧ (s.pushFront c).pc = s.pc ∧ (s.pushFront c).nq = s.nq ∧ (s.pushFront c).pp = s.pp
      ∧ (s.pushFront c).fri = s.fri ∧ (s.pushFront c).oh = s.oh ∧ (s.pushFront c).epoch = s.epoch
      ∧ (s.pushFront c).now = s.now ∧ (s.pushFront c).showAt = s.showAt ∧ (s.pushFront c).titleAt = s.titleAt
      ∧ (s.pushFront c).holdAt = s.holdAt ∧ (s.pushFront c).board = s.board ∧ (s.pushFront c).segAt = s.segAt
      ∧ (s.pushFront c).freedAt = s.freedAt ∧ (s.pushFront c).reelAt = s.reelAt ∧ (s.pushFront c).ctx = s.ctx
      ∧ (s.pushFront c).slot = s.slot ∧ (s.pushFront c).noticeAt = s.noticeAt ∧ (s.pushFront c).port = s.port
      ∧ (s.pushFront c).routeAt = s.routeAt ∧ (s.pushFront c).resetTaken = s.resetTaken :=
  ⟨rfl, rfl, rfl, rfl, rfl, rfl, rfl, rfl, rfl, rfl, rfl, rfl, rfl, rfl, rfl, rfl, rfl, rfl, rfl, rfl, rfl, rfl, rfl, rfl, rfl, rfl, rfl⟩

@[simp] theorem State.queueReport_frame (s : State) (k : ReportKind) (body : List Fld) :
    (s.queueReport k body).tb = s.tb ∧ (s.queueReport k body).paths = s.paths ∧ (s.queueReport k body).st = s.st
      ∧ (s.queueReport k body).sq = s.sq ∧ (s.queueReport k body).bc = s.bc ∧ (s.queueReport k body).sg = s.sg
      ∧ (s.queueReport k body).rl = s.rl ∧ (s.queueReport k body).pc = s.pc ∧ (s.queueReport k body).nq = s.nq
      ∧ (s.queueReport k body).pp = s.pp ∧ (s.queueReport k body).oh = s.oh ∧ (s.queueReport k body).epoch = s.epoch
      ∧ (s.queueReport k body).pending = s.pending ∧ (s.queueReport k body).now = s.now
      ∧ (s.queueReport k body).showAt = s.showAt ∧ (s.queueReport k body).titleAt = s.titleAt
      ∧ (s.queueReport k body).holdAt = s.holdAt ∧ (s.queueReport k body).board = s.board
      ∧ (s.queueReport k body).segAt = s.segAt ∧ (s.queueReport k body).freedAt = s.freedAt
      ∧ (s.queueReport k body).reelAt = s.reelAt ∧ (s.queueReport k body).ctx = s.ctx
      ∧ (s.queueReport k body).slot = s.slot ∧ (s.queueReport k body).noticeAt = s.noticeAt
      ∧ (s.queueReport k body).port = s.port ∧ (s.queueReport k body).resetTaken = s.resetTaken :=
  ⟨rfl, rfl, rfl, rfl, rfl, rfl, rfl, rfl, rfl, rfl, rfl, rfl, rfl, rfl, rfl, rfl, rfl, rfl, rfl, rfl, rfl, rfl, rfl, rfl, rfl, rfl⟩

@[simp] theorem State.dropHold_frame (s : State) (k : DeskTag) :
    (s.dropHold k).tb = s.tb ∧ (s.dropHold k).paths = s.paths ∧ (s.dropHold k).st = s.st ∧ (s.dropHold k).bc = s.bc
      ∧ (s.dropHold k).sg = s.sg ∧ (s.dropHold k).rl = s.rl ∧ (s.dropHold k).pc = s.pc ∧ (s.dropHold k).nq = s.nq
      ∧ (s.dropHold k).pp = s.pp ∧ (s.dropHold k).fri = s.fri ∧ (s.dropHold k).oh = s.oh
      ∧ (s.dropHold k).epoch = s.epoch ∧ (s.dropHold k).pending = s.pending ∧ (s.dropHold k).now = s.now
      ∧ (s.dropHold k).showAt = s.showAt ∧ (s.dropHold k).titleAt = s.titleAt ∧ (s.dropHold k).board = s.board
      ∧ (s.dropHold k).segAt = s.segAt ∧ (s.dropHold k).freedAt = s.freedAt ∧ (s.dropHold k).reelAt = s.reelAt
      ∧ (s.dropHold k).ctx = s.ctx ∧ (s.dropHold k).slot = s.slot ∧ (s.dropHold k).noticeAt = s.noticeAt
      ∧ (s.dropHold k).port = s.port ∧ (s.dropHold k).routeAt = s.routeAt ∧ (s.dropHold k).resetTaken = s.resetTaken :=
  ⟨rfl, rfl, rfl, rfl, rfl, rfl, rfl, rfl, rfl, rfl, rfl, rfl, rfl, rfl, rfl, rfl, rfl, rfl, rfl, rfl, rfl, rfl, rfl, rfl, rfl, rfl⟩

@[simp] theorem State.dropNotice_frame (s : State) (k : DeskTag) :
    (s.dropNotice k).tb = s.tb ∧ (s.dropNotice k).paths = s.paths ∧ (s.dropNotice k).st = s.st
      ∧ (s.dropNotice k).sq = s.sq ∧ (s.dropNotice k).bc = s.bc ∧ (s.dropNotice k).sg = s.sg
      ∧ (s.dropNotice k).rl = s.rl ∧ (s.dropNotice k).pc = s.pc ∧ (s.dropNotice k).pp = s.pp
      ∧ (s.dropNotice k).fri = s.fri ∧ (s.dropNotice k).oh = s.oh ∧ (s.dropNotice k).epoch = s.epoch
      ∧ (s.dropNotice k).pending = s.pending ∧ (s.dropNotice k).now = s.now ∧ (s.dropNotice k).showAt = s.showAt
      ∧ (s.dropNotice k).titleAt = s.titleAt ∧ (s.dropNotice k).holdAt = s.holdAt ∧ (s.dropNotice k).board = s.board
      ∧ (s.dropNotice k).segAt = s.segAt ∧ (s.dropNotice k).freedAt = s.freedAt ∧ (s.dropNotice k).reelAt = s.reelAt
      ∧ (s.dropNotice k).ctx = s.ctx ∧ (s.dropNotice k).port = s.port ∧ (s.dropNotice k).routeAt = s.routeAt
      ∧ (s.dropNotice k).resetTaken = s.resetTaken :=
  ⟨rfl, rfl, rfl, rfl, rfl, rfl, rfl, rfl, rfl, rfl, rfl, rfl, rfl, rfl, rfl, rfl, rfl, rfl, rfl, rfl, rfl, rfl, rfl, rfl, rfl⟩

@[simp] theorem State.clearRow_frame (s : State) (p : Port) (i : Nat) :
    (s.clearRow p i).tb = s.tb ∧ (s.clearRow p i).paths = s.paths ∧ (s.clearRow p i).st = s.st
      ∧ (s.clearRow p i).sq = s.sq ∧ (s.clearRow p i).sg = s.sg ∧ (s.clearRow p i).rl = s.rl
      ∧ (s.clearRow p i).pc = s.pc ∧ (s.clearRow p i).nq = s.nq ∧ (s.clearRow p i).pp = s.pp
      ∧ (s.clearRow p i).fri = s.fri ∧ (s.clearRow p i).oh = s.oh ∧ (s.clearRow p i).epoch = s.epoch
      ∧ (s.clearRow p i).pending = s.pending ∧ (s.clearRow p i).now = s.now ∧ (s.clearRow p i).showAt = s.showAt
      ∧ (s.clearRow p i).titleAt = s.titleAt ∧ (s.clearRow p i).holdAt = s.holdAt ∧ (s.clearRow p i).segAt = s.segAt
      ∧ (s.clearRow p i).freedAt = s.freedAt ∧ (s.clearRow p i).reelAt = s.reelAt ∧ (s.clearRow p i).ctx = s.ctx
      ∧ (s.clearRow p i).slot = s.slot ∧ (s.clearRow p i).noticeAt = s.noticeAt ∧ (s.clearRow p i).port = s.port
      ∧ (s.clearRow p i).routeAt = s.routeAt ∧ (s.clearRow p i).resetTaken = s.resetTaken :=
  ⟨rfl, rfl, rfl, rfl, rfl, rfl, rfl, rfl, rfl, rfl, rfl, rfl, rfl, rfl, rfl, rfl, rfl, rfl, rfl, rfl, rfl, rfl, rfl, rfl, rfl, rfl⟩

@[simp] theorem State.repaint_frame (s : State) (p : Port) :
    (s.repaint p).tb = s.tb ∧ (s.repaint p).paths = s.paths ∧ (s.repaint p).st = s.st ∧ (s.repaint p).sq = s.sq
      ∧ (s.repaint p).sg = s.sg ∧ (s.repaint p).rl = s.rl ∧ (s.repaint p).pc = s.pc ∧ (s.repaint p).nq = s.nq
      ∧ (s.repaint p).pp = s.pp ∧ (s.repaint p).fri = s.fri ∧ (s.repaint p).oh = s.oh ∧ (s.repaint p).epoch = s.epoch
      ∧ (s.repaint p).pending = s.pending ∧ (s.repaint p).now = s.now ∧ (s.repaint p).showAt = s.showAt
      ∧ (s.repaint p).titleAt = s.titleAt ∧ (s.repaint p).holdAt = s.holdAt ∧ (s.repaint p).segAt = s.segAt
      ∧ (s.repaint p).freedAt = s.freedAt ∧ (s.repaint p).reelAt = s.reelAt ∧ (s.repaint p).ctx = s.ctx
      ∧ (s.repaint p).slot = s.slot ∧ (s.repaint p).noticeAt = s.noticeAt ∧ (s.repaint p).port = s.port
      ∧ (s.repaint p).routeAt = s.routeAt ∧ (s.repaint p).resetTaken = s.resetTaken :=
  ⟨rfl, rfl, rfl, rfl, rfl, rfl, rfl, rfl, rfl, rfl, rfl, rfl, rfl, rfl, rfl, rfl, rfl, rfl, rfl, rfl, rfl, rfl, rfl, rfl, rfl, rfl⟩

@[simp] theorem State.placeReply_frame (s : State) (r : Reply) :
    (s.placeReply r).tb = s.tb ∧ (s.placeReply r).paths = s.paths ∧ (s.placeReply r).st = s.st
      ∧ (s.placeReply r).sq = s.sq ∧ (s.placeReply r).bc = s.bc ∧ (s.placeReply r).sg = s.sg
      ∧ (s.placeReply r).rl = s.rl ∧ (s.placeReply r).pc = s.pc ∧ (s.placeReply r).nq = s.nq
      ∧ (s.placeReply r).pp = s.pp ∧ (s.placeReply r).oh = s.oh ∧ (s.placeReply r).epoch = s.epoch
      ∧ (s.placeReply r).pending = s.pending ∧ (s.placeReply r).now = s.now ∧ (s.placeReply r).showAt = s.showAt
      ∧ (s.placeReply r).titleAt = s.titleAt ∧ (s.placeReply r).holdAt = s.holdAt ∧ (s.placeReply r).board = s.board
      ∧ (s.placeReply r).segAt = s.segAt ∧ (s.placeReply r).freedAt = s.freedAt ∧ (s.placeReply r).reelAt = s.reelAt
      ∧ (s.placeReply r).ctx = s.ctx ∧ (s.placeReply r).slot = s.slot ∧ (s.placeReply r).noticeAt = s.noticeAt
      ∧ (s.placeReply r).port = s.port ∧ (s.placeReply r).resetTaken = s.resetTaken :=
  ⟨rfl, rfl, rfl, rfl, rfl, rfl, rfl, rfl, rfl, rfl, rfl, rfl, rfl, rfl, rfl, rfl, rfl, rfl, rfl, rfl, rfl, rfl, rfl, rfl, rfl, rfl⟩

@[simp] theorem State.answer_frame (s : State) (c : List Byte) (a : Answer) :
    (s.answer c a).tb = s.tb ∧ (s.answer c a).paths = s.paths ∧ (s.answer c a).st = s.st ∧ (s.answer c a).sq = s.sq
      ∧ (s.answer c a).bc = s.bc ∧ (s.answer c a).sg = s.sg ∧ (s.answer c a).rl = s.rl ∧ (s.answer c a).pc = s.pc
      ∧ (s.answer c a).nq = s.nq ∧ (s.answer c a).pp = s.pp ∧ (s.answer c a).oh = s.oh
      ∧ (s.answer c a).epoch = s.epoch ∧ (s.answer c a).pending = s.pending ∧ (s.answer c a).now = s.now
      ∧ (s.answer c a).showAt = s.showAt ∧ (s.answer c a).titleAt = s.titleAt ∧ (s.answer c a).holdAt = s.holdAt
      ∧ (s.answer c a).board = s.board ∧ (s.answer c a).segAt = s.segAt ∧ (s.answer c a).freedAt = s.freedAt
      ∧ (s.answer c a).reelAt = s.reelAt ∧ (s.answer c a).ctx = s.ctx ∧ (s.answer c a).slot = s.slot
      ∧ (s.answer c a).noticeAt = s.noticeAt ∧ (s.answer c a).port = s.port ∧ (s.answer c a).resetTaken = s.resetTaken :=
  ⟨rfl, rfl, rfl, rfl, rfl, rfl, rfl, rfl, rfl, rfl, rfl, rfl, rfl, rfl, rfl, rfl, rfl, rfl, rfl, rfl, rfl, rfl, rfl, rfl, rfl, rfl⟩

@[simp] theorem State.giveBack_frame (s : State) :
    (s.giveBack).tb = s.tb ∧ (s.giveBack).paths = s.paths ∧ (s.giveBack).st = s.st ∧ (s.giveBack).sq = s.sq
      ∧ (s.giveBack).bc = s.bc ∧ (s.giveBack).sg = s.sg ∧ (s.giveBack).rl = s.rl ∧ (s.giveBack).pc = s.pc
      ∧ (s.giveBack).nq = s.nq ∧ (s.giveBack).pp = s.pp ∧ (s.giveBack).oh = s.oh ∧ (s.giveBack).epoch = s.epoch
      ∧ (s.giveBack).pending = s.pending ∧ (s.giveBack).now = s.now ∧ (s.giveBack).showAt = s.showAt
      ∧ (s.giveBack).titleAt = s.titleAt ∧ (s.giveBack).holdAt = s.holdAt ∧ (s.giveBack).board = s.board
      ∧ (s.giveBack).segAt = s.segAt ∧ (s.giveBack).freedAt = s.freedAt ∧ (s.giveBack).reelAt = s.reelAt
      ∧ (s.giveBack).ctx = s.ctx ∧ (s.giveBack).slot = s.slot ∧ (s.giveBack).noticeAt = s.noticeAt
      ∧ (s.giveBack).port = s.port ∧ (s.giveBack).resetTaken = s.resetTaken :=
  ⟨rfl, rfl, rfl, rfl, rfl, rfl, rfl, rfl, rfl, rfl, rfl, rfl, rfl, rfl, rfl, rfl, rfl, rfl, rfl, rfl, rfl, rfl, rfl, rfl, rfl, rfl⟩

@[simp] theorem State.sendSlot_frame (s : State) (c : List Byte) :
    (State.sendSlot c s).tb = s.tb ∧ (State.sendSlot c s).paths = s.paths ∧ (State.sendSlot c s).st = s.st
      ∧ (State.sendSlot c s).sq = s.sq ∧ (State.sendSlot c s).bc = s.bc ∧ (State.sendSlot c s).sg = s.sg
      ∧ (State.sendSlot c s).rl = s.rl ∧ (State.sendSlot c s).pc = s.pc ∧ (State.sendSlot c s).nq = s.nq
      ∧ (State.sendSlot c s).pp = s.pp ∧ (State.sendSlot c s).oh = s.oh ∧ (State.sendSlot c s).epoch = s.epoch
      ∧ (State.sendSlot c s).pending = s.pending ∧ (State.sendSlot c s).now = s.now
      ∧ (State.sendSlot c s).showAt = s.showAt ∧ (State.sendSlot c s).titleAt = s.titleAt
      ∧ (State.sendSlot c s).holdAt = s.holdAt ∧ (State.sendSlot c s).board = s.board
      ∧ (State.sendSlot c s).segAt = s.segAt ∧ (State.sendSlot c s).freedAt = s.freedAt
      ∧ (State.sendSlot c s).reelAt = s.reelAt ∧ (State.sendSlot c s).ctx = s.ctx ∧ (State.sendSlot c s).slot = s.slot
      ∧ (State.sendSlot c s).noticeAt = s.noticeAt ∧ (State.sendSlot c s).port = s.port
      ∧ (State.sendSlot c s).resetTaken = s.resetTaken :=
  ⟨rfl, rfl, rfl, rfl, rfl, rfl, rfl, rfl, rfl, rfl, rfl, rfl, rfl, rfl, rfl, rfl, rfl, rfl, rfl, rfl, rfl, rfl, rfl, rfl, rfl, rfl⟩

@[simp] theorem State.takeCell_frame (s : State) (c : List Byte) :
    (State.takeCell c s).tb = s.tb ∧ (State.takeCell c s).paths = s.paths ∧ (State.takeCell c s).st = s.st
      ∧ (State.takeCell c s).sq = s.sq ∧ (State.takeCell c s).bc = s.bc ∧ (State.takeCell c s).sg = s.sg
      ∧ (State.takeCell c s).rl = s.rl ∧ (State.takeCell c s).pc = s.pc ∧ (State.takeCell c s).nq = s.nq
      ∧ (State.takeCell c s).pp = s.pp ∧ (State.takeCell c s).oh = s.oh ∧ (State.takeCell c s).epoch = s.epoch
      ∧ (State.takeCell c s).pending = s.pending ∧ (State.takeCell c s).now = s.now
      ∧ (State.takeCell c s).showAt = s.showAt ∧ (State.takeCell c s).titleAt = s.titleAt
      ∧ (State.takeCell c s).holdAt = s.holdAt ∧ (State.takeCell c s).board = s.board
      ∧ (State.takeCell c s).segAt = s.segAt ∧ (State.takeCell c s).freedAt = s.freedAt
      ∧ (State.takeCell c s).reelAt = s.reelAt ∧ (State.takeCell c s).ctx = s.ctx ∧ (State.takeCell c s).slot = s.slot
      ∧ (State.takeCell c s).noticeAt = s.noticeAt ∧ (State.takeCell c s).port = s.port
      ∧ (State.takeCell c s).resetTaken = s.resetTaken :=
  ⟨rfl, rfl, rfl, rfl, rfl, rfl, rfl, rfl, rfl, rfl, rfl, rfl, rfl, rfl, rfl, rfl, rfl, rfl, rfl, rfl, rfl, rfl, rfl, rfl, rfl, rfl⟩

@[simp] theorem State.feedUp_frame (s : State) :
    (s.feedUp).tb = s.tb ∧ (s.feedUp).paths = s.paths ∧ (s.feedUp).st = s.st ∧ (s.feedUp).sq = s.sq
      ∧ (s.feedUp).bc = s.bc ∧ (s.feedUp).sg = s.sg ∧ (s.feedUp).rl = s.rl ∧ (s.feedUp).pc = s.pc
      ∧ (s.feedUp).nq = s.nq ∧ (s.feedUp).pp = s.pp ∧ (s.feedUp).oh = s.oh ∧ (s.feedUp).epoch = s.epoch
      ∧ (s.feedUp).pending = s.pending ∧ (s.feedUp).now = s.now ∧ (s.feedUp).showAt = s.showAt
      ∧ (s.feedUp).titleAt = s.titleAt ∧ (s.feedUp).holdAt = s.holdAt ∧ (s.feedUp).board = s.board
      ∧ (s.feedUp).segAt = s.segAt ∧ (s.feedUp).freedAt = s.freedAt ∧ (s.feedUp).reelAt = s.reelAt
      ∧ (s.feedUp).ctx = s.ctx ∧ (s.feedUp).slot = s.slot ∧ (s.feedUp).noticeAt = s.noticeAt
      ∧ (s.feedUp).port = s.port ∧ (s.feedUp).resetTaken = s.resetTaken :=
  ⟨rfl, rfl, rfl, rfl, rfl, rfl, rfl, rfl, rfl, rfl, rfl, rfl, rfl, rfl, rfl, rfl, rfl, rfl, rfl, rfl, rfl, rfl, rfl, rfl, rfl, rfl⟩

@[simp] theorem State.setClock_frame (s : State) (c : LobbyClock) :
    (State.setClock c s).paths = s.paths ∧ (State.setClock c s).st = s.st ∧ (State.setClock c s).sq = s.sq
      ∧ (State.setClock c s).bc = s.bc ∧ (State.setClock c s).sg = s.sg ∧ (State.setClock c s).rl = s.rl
      ∧ (State.setClock c s).pc = s.pc ∧ (State.setClock c s).nq = s.nq ∧ (State.setClock c s).pp = s.pp
      ∧ (State.setClock c s).fri = s.fri ∧ (State.setClock c s).oh = s.oh ∧ (State.setClock c s).epoch = s.epoch
      ∧ (State.setClock c s).pending = s.pending ∧ (State.setClock c s).showAt = s.showAt
      ∧ (State.setClock c s).titleAt = s.titleAt ∧ (State.setClock c s).holdAt = s.holdAt
      ∧ (State.setClock c s).board = s.board ∧ (State.setClock c s).segAt = s.segAt
      ∧ (State.setClock c s).freedAt = s.freedAt ∧ (State.setClock c s).reelAt = s.reelAt
      ∧ (State.setClock c s).ctx = s.ctx ∧ (State.setClock c s).slot = s.slot
      ∧ (State.setClock c s).noticeAt = s.noticeAt ∧ (State.setClock c s).port = s.port
      ∧ (State.setClock c s).routeAt = s.routeAt ∧ (State.setClock c s).resetTaken = s.resetTaken :=
  ⟨rfl, rfl, rfl, rfl, rfl, rfl, rfl, rfl, rfl, rfl, rfl, rfl, rfl, rfl, rfl, rfl, rfl, rfl, rfl, rfl, rfl, rfl, rfl, rfl, rfl, rfl⟩

@[simp] theorem State.setTitle_frame (s : State) (n : Nat) (text : List Byte) :
    (State.setTitle n text s).tb = s.tb ∧ (State.setTitle n text s).paths = s.paths
      ∧ (State.setTitle n text s).sq = s.sq ∧ (State.setTitle n text s).bc = s.bc
      ∧ (State.setTitle n text s).sg = s.sg ∧ (State.setTitle n text s).rl = s.rl
      ∧ (State.setTitle n text s).pc = s.pc ∧ (State.setTitle n text s).nq = s.nq
      ∧ (State.setTitle n text s).pp = s.pp ∧ (State.setTitle n text s).fri = s.fri
      ∧ (State.setTitle n text s).oh = s.oh ∧ (State.setTitle n text s).epoch = s.epoch
      ∧ (State.setTitle n text s).pending = s.pending ∧ (State.setTitle n text s).now = s.now
      ∧ (State.setTitle n text s).holdAt = s.holdAt ∧ (State.setTitle n text s).board = s.board
      ∧ (State.setTitle n text s).segAt = s.segAt ∧ (State.setTitle n text s).freedAt = s.freedAt
      ∧ (State.setTitle n text s).reelAt = s.reelAt ∧ (State.setTitle n text s).ctx = s.ctx
      ∧ (State.setTitle n text s).slot = s.slot ∧ (State.setTitle n text s).noticeAt = s.noticeAt
      ∧ (State.setTitle n text s).port = s.port ∧ (State.setTitle n text s).routeAt = s.routeAt
      ∧ (State.setTitle n text s).resetTaken = s.resetTaken :=
  ⟨rfl, rfl, rfl, rfl, rfl, rfl, rfl, rfl, rfl, rfl, rfl, rfl, rfl, rfl, rfl, rfl, rfl, rfl, rfl, rfl, rfl, rfl, rfl, rfl, rfl⟩

@[simp] theorem State.joinHold_frame (s : State) (h : Hold) :
    (State.joinHold h s).tb = s.tb ∧ (State.joinHold h s).paths = s.paths ∧ (State.joinHold h s).st = s.st
      ∧ (State.joinHold h s).bc = s.bc ∧ (State.joinHold h s).sg = s.sg ∧ (State.joinHold h s).rl = s.rl
      ∧ (State.joinHold h s).pc = s.pc ∧ (State.joinHold h s).nq = s.nq ∧ (State.joinHold h s).pp = s.pp
      ∧ (State.joinHold h s).fri = s.fri ∧ (State.joinHold h s).oh = s.oh ∧ (State.joinHold h s).epoch = s.epoch
      ∧ (State.joinHold h s).pending = s.pending ∧ (State.joinHold h s).now = s.now
      ∧ (State.joinHold h s).showAt = s.showAt ∧ (State.joinHold h s).titleAt = s.titleAt
      ∧ (State.joinHold h s).board = s.board ∧ (State.joinHold h s).segAt = s.segAt
      ∧ (State.joinHold h s).freedAt = s.freedAt ∧ (State.joinHold h s).reelAt = s.reelAt
      ∧ (State.joinHold h s).ctx = s.ctx ∧ (State.joinHold h s).slot = s.slot
      ∧ (State.joinHold h s).noticeAt = s.noticeAt ∧ (State.joinHold h s).port = s.port
      ∧ (State.joinHold h s).routeAt = s.routeAt ∧ (State.joinHold h s).resetTaken = s.resetTaken :=
  ⟨rfl, rfl, rfl, rfl, rfl, rfl, rfl, rfl, rfl, rfl, rfl, rfl, rfl, rfl, rfl, rfl, rfl, rfl, rfl, rfl, rfl, rfl, rfl, rfl, rfl, rfl⟩

@[simp] theorem State.joinNotice_frame (s : State) (n : Notice) :
    (State.joinNotice n s).tb = s.tb ∧ (State.joinNotice n s).paths = s.paths ∧ (State.joinNotice n s).st = s.st
      ∧ (State.joinNotice n s).sq = s.sq ∧ (State.joinNotice n s).bc = s.bc ∧ (State.joinNotice n s).sg = s.sg
      ∧ (State.joinNotice n s).rl = s.rl ∧ (State.joinNotice n s).pc = s.pc ∧ (State.joinNotice n s).pp = s.pp
      ∧ (State.joinNotice n s).fri = s.fri ∧ (State.joinNotice n s).oh = s.oh ∧ (State.joinNotice n s).epoch = s.epoch
      ∧ (State.joinNotice n s).pending = s.pending ∧ (State.joinNotice n s).now = s.now
      ∧ (State.joinNotice n s).showAt = s.showAt ∧ (State.joinNotice n s).titleAt = s.titleAt
      ∧ (State.joinNotice n s).holdAt = s.holdAt ∧ (State.joinNotice n s).board = s.board
      ∧ (State.joinNotice n s).segAt = s.segAt ∧ (State.joinNotice n s).freedAt = s.freedAt
      ∧ (State.joinNotice n s).reelAt = s.reelAt ∧ (State.joinNotice n s).ctx = s.ctx
      ∧ (State.joinNotice n s).port = s.port ∧ (State.joinNotice n s).routeAt = s.routeAt
      ∧ (State.joinNotice n s).resetTaken = s.resetTaken :=
  ⟨rfl, rfl, rfl, rfl, rfl, rfl, rfl, rfl, rfl, rfl, rfl, rfl, rfl, rfl, rfl, rfl, rfl, rfl, rfl, rfl, rfl, rfl, rfl, rfl, rfl⟩

@[simp] theorem State.mapNotice_frame (s : State) (k : DeskTag) (f : Notice → Notice) :
    (State.mapNotice k f s).tb = s.tb ∧ (State.mapNotice k f s).paths = s.paths ∧ (State.mapNotice k f s).st = s.st
      ∧ (State.mapNotice k f s).sq = s.sq ∧ (State.mapNotice k f s).bc = s.bc ∧ (State.mapNotice k f s).sg = s.sg
      ∧ (State.mapNotice k f s).rl = s.rl ∧ (State.mapNotice k f s).pc = s.pc ∧ (State.mapNotice k f s).pp = s.pp
      ∧ (State.mapNotice k f s).fri = s.fri ∧ (State.mapNotice k f s).oh = s.oh
      ∧ (State.mapNotice k f s).epoch = s.epoch ∧ (State.mapNotice k f s).pending = s.pending
      ∧ (State.mapNotice k f s).now = s.now ∧ (State.mapNotice k f s).showAt = s.showAt
      ∧ (State.mapNotice k f s).titleAt = s.titleAt ∧ (State.mapNotice k f s).holdAt = s.holdAt
      ∧ (State.mapNotice k f s).board = s.board ∧ (State.mapNotice k f s).segAt = s.segAt
      ∧ (State.mapNotice k f s).freedAt = s.freedAt ∧ (State.mapNotice k f s).reelAt = s.reelAt
      ∧ (State.mapNotice k f s).ctx = s.ctx ∧ (State.mapNotice k f s).port = s.port
      ∧ (State.mapNotice k f s).routeAt = s.routeAt ∧ (State.mapNotice k f s).resetTaken = s.resetTaken :=
  ⟨rfl, rfl, rfl, rfl, rfl, rfl, rfl, rfl, rfl, rfl, rfl, rfl, rfl, rfl, rfl, rfl, rfl, rfl, rfl, rfl, rfl, rfl, rfl, rfl, rfl⟩

@[simp] theorem State.markLapsed_frame (s : State) (k : DeskTag) (cause : LapseCause) (time : Nat) :
    (State.markLapsed k cause time s).tb = s.tb ∧ (State.markLapsed k cause time s).paths = s.paths
      ∧ (State.markLapsed k cause time s).st = s.st ∧ (State.markLapsed k cause time s).bc = s.bc
      ∧ (State.markLapsed k cause time s).sg = s.sg ∧ (State.markLapsed k cause time s).rl = s.rl
      ∧ (State.markLapsed k cause time s).pc = s.pc ∧ (State.markLapsed k cause time s).nq = s.nq
      ∧ (State.markLapsed k cause time s).pp = s.pp ∧ (State.markLapsed k cause time s).fri = s.fri
      ∧ (State.markLapsed k cause time s).oh = s.oh ∧ (State.markLapsed k cause time s).epoch = s.epoch
      ∧ (State.markLapsed k cause time s).pending = s.pending ∧ (State.markLapsed k cause time s).now = s.now
      ∧ (State.markLapsed k cause time s).showAt = s.showAt ∧ (State.markLapsed k cause time s).titleAt = s.titleAt
      ∧ (State.markLapsed k cause time s).board = s.board ∧ (State.markLapsed k cause time s).segAt = s.segAt
      ∧ (State.markLapsed k cause time s).freedAt = s.freedAt ∧ (State.markLapsed k cause time s).reelAt = s.reelAt
      ∧ (State.markLapsed k cause time s).ctx = s.ctx ∧ (State.markLapsed k cause time s).slot = s.slot
      ∧ (State.markLapsed k cause time s).noticeAt = s.noticeAt ∧ (State.markLapsed k cause time s).port = s.port
      ∧ (State.markLapsed k cause time s).routeAt = s.routeAt
      ∧ (State.markLapsed k cause time s).resetTaken = s.resetTaken :=
  ⟨rfl, rfl, rfl, rfl, rfl, rfl, rfl, rfl, rfl, rfl, rfl, rfl, rfl, rfl, rfl, rfl, rfl, rfl, rfl, rfl, rfl, rfl, rfl, rfl, rfl, rfl⟩

@[simp] theorem State.tellEnded_frame (s : State) (n : Nat) :
    (State.tellEnded n s).tb = s.tb ∧ (State.tellEnded n s).st = s.st ∧ (State.tellEnded n s).sq = s.sq
      ∧ (State.tellEnded n s).bc = s.bc ∧ (State.tellEnded n s).sg = s.sg ∧ (State.tellEnded n s).rl = s.rl
      ∧ (State.tellEnded n s).pc = s.pc ∧ (State.tellEnded n s).nq = s.nq ∧ (State.tellEnded n s).pp = s.pp
      ∧ (State.tellEnded n s).fri = s.fri ∧ (State.tellEnded n s).oh = s.oh ∧ (State.tellEnded n s).epoch = s.epoch
      ∧ (State.tellEnded n s).pending = s.pending ∧ (State.tellEnded n s).now = s.now
      ∧ (State.tellEnded n s).showAt = s.showAt ∧ (State.tellEnded n s).titleAt = s.titleAt
      ∧ (State.tellEnded n s).holdAt = s.holdAt ∧ (State.tellEnded n s).board = s.board
      ∧ (State.tellEnded n s).segAt = s.segAt ∧ (State.tellEnded n s).freedAt = s.freedAt
      ∧ (State.tellEnded n s).reelAt = s.reelAt ∧ (State.tellEnded n s).ctx = s.ctx
      ∧ (State.tellEnded n s).slot = s.slot ∧ (State.tellEnded n s).noticeAt = s.noticeAt
      ∧ (State.tellEnded n s).port = s.port ∧ (State.tellEnded n s).routeAt = s.routeAt
      ∧ (State.tellEnded n s).resetTaken = s.resetTaken :=
  ⟨rfl, rfl, rfl, rfl, rfl, rfl, rfl, rfl, rfl, rfl, rfl, rfl, rfl, rfl, rfl, rfl, rfl, rfl, rfl, rfl, rfl, rfl, rfl, rfl, rfl, rfl, rfl⟩

@[simp] theorem State.flushLive_frame (s : State) (p : Port) :
    (State.flushLive p s).tb = s.tb ∧ (State.flushLive p s).paths = s.paths ∧ (State.flushLive p s).st = s.st
      ∧ (State.flushLive p s).sq = s.sq ∧ (State.flushLive p s).bc = s.bc ∧ (State.flushLive p s).sg = s.sg
      ∧ (State.flushLive p s).rl = s.rl ∧ (State.flushLive p s).pc = s.pc ∧ (State.flushLive p s).nq = s.nq
      ∧ (State.flushLive p s).fri = s.fri ∧ (State.flushLive p s).oh = s.oh ∧ (State.flushLive p s).epoch = s.epoch
      ∧ (State.flushLive p s).pending = s.pending ∧ (State.flushLive p s).now = s.now
      ∧ (State.flushLive p s).showAt = s.showAt ∧ (State.flushLive p s).titleAt = s.titleAt
      ∧ (State.flushLive p s).holdAt = s.holdAt ∧ (State.flushLive p s).board = s.board
      ∧ (State.flushLive p s).segAt = s.segAt ∧ (State.flushLive p s).freedAt = s.freedAt
      ∧ (State.flushLive p s).reelAt = s.reelAt ∧ (State.flushLive p s).ctx = s.ctx
      ∧ (State.flushLive p s).slot = s.slot ∧ (State.flushLive p s).noticeAt = s.noticeAt
      ∧ (State.flushLive p s).routeAt = s.routeAt ∧ (State.flushLive p s).resetTaken = s.resetTaken :=
  ⟨rfl, rfl, rfl, rfl, rfl, rfl, rfl, rfl, rfl, rfl, rfl, rfl, rfl, rfl, rfl, rfl, rfl, rfl, rfl, rfl, rfl, rfl, rfl, rfl, rfl, rfl⟩

@[simp] theorem State.setDarkOwed_frame (s : State) (p : Port) (b : Bool) :
    (State.setDarkOwed p b s).tb = s.tb ∧ (State.setDarkOwed p b s).paths = s.paths
      ∧ (State.setDarkOwed p b s).st = s.st ∧ (State.setDarkOwed p b s).sq = s.sq
      ∧ (State.setDarkOwed p b s).bc = s.bc ∧ (State.setDarkOwed p b s).sg = s.sg
      ∧ (State.setDarkOwed p b s).rl = s.rl ∧ (State.setDarkOwed p b s).pc = s.pc
      ∧ (State.setDarkOwed p b s).nq = s.nq ∧ (State.setDarkOwed p b s).fri = s.fri
      ∧ (State.setDarkOwed p b s).oh = s.oh ∧ (State.setDarkOwed p b s).epoch = s.epoch
      ∧ (State.setDarkOwed p b s).pending = s.pending ∧ (State.setDarkOwed p b s).now = s.now
      ∧ (State.setDarkOwed p b s).showAt = s.showAt ∧ (State.setDarkOwed p b s).titleAt = s.titleAt
      ∧ (State.setDarkOwed p b s).holdAt = s.holdAt ∧ (State.setDarkOwed p b s).board = s.board
      ∧ (State.setDarkOwed p b s).segAt = s.segAt ∧ (State.setDarkOwed p b s).freedAt = s.freedAt
      ∧ (State.setDarkOwed p b s).reelAt = s.reelAt ∧ (State.setDarkOwed p b s).ctx = s.ctx
      ∧ (State.setDarkOwed p b s).slot = s.slot ∧ (State.setDarkOwed p b s).noticeAt = s.noticeAt
      ∧ (State.setDarkOwed p b s).routeAt = s.routeAt ∧ (State.setDarkOwed p b s).resetTaken = s.resetTaken :=
  ⟨rfl, rfl, rfl, rfl, rfl, rfl, rfl, rfl, rfl, rfl, rfl, rfl, rfl, rfl, rfl, rfl, rfl, rfl, rfl, rfl, rfl, rfl, rfl, rfl, rfl, rfl⟩

@[simp] theorem State.setMode_frame (s : State) (p : Port) (m : PanelMode) :
    (State.setMode p m s).tb = s.tb ∧ (State.setMode p m s).paths = s.paths ∧ (State.setMode p m s).st = s.st
      ∧ (State.setMode p m s).sq = s.sq ∧ (State.setMode p m s).bc = s.bc ∧ (State.setMode p m s).sg = s.sg
      ∧ (State.setMode p m s).rl = s.rl ∧ (State.setMode p m s).pc = s.pc ∧ (State.setMode p m s).nq = s.nq
      ∧ (State.setMode p m s).fri = s.fri ∧ (State.setMode p m s).oh = s.oh ∧ (State.setMode p m s).epoch = s.epoch
      ∧ (State.setMode p m s).pending = s.pending ∧ (State.setMode p m s).now = s.now
      ∧ (State.setMode p m s).showAt = s.showAt ∧ (State.setMode p m s).titleAt = s.titleAt
      ∧ (State.setMode p m s).holdAt = s.holdAt ∧ (State.setMode p m s).board = s.board
      ∧ (State.setMode p m s).segAt = s.segAt ∧ (State.setMode p m s).freedAt = s.freedAt
      ∧ (State.setMode p m s).reelAt = s.reelAt ∧ (State.setMode p m s).ctx = s.ctx
      ∧ (State.setMode p m s).slot = s.slot ∧ (State.setMode p m s).noticeAt = s.noticeAt
      ∧ (State.setMode p m s).routeAt = s.routeAt ∧ (State.setMode p m s).resetTaken = s.resetTaken :=
  ⟨rfl, rfl, rfl, rfl, rfl, rfl, rfl, rfl, rfl, rfl, rfl, rfl, rfl, rfl, rfl, rfl, rfl, rfl, rfl, rfl, rfl, rfl, rfl, rfl, rfl, rfl⟩

@[simp] theorem State.setHold_frame (s : State) (p : Port) (b : Bool) :
    (State.setHold p b s).tb = s.tb ∧ (State.setHold p b s).paths = s.paths ∧ (State.setHold p b s).st = s.st
      ∧ (State.setHold p b s).sq = s.sq ∧ (State.setHold p b s).bc = s.bc ∧ (State.setHold p b s).sg = s.sg
      ∧ (State.setHold p b s).rl = s.rl ∧ (State.setHold p b s).pc = s.pc ∧ (State.setHold p b s).nq = s.nq
      ∧ (State.setHold p b s).fri = s.fri ∧ (State.setHold p b s).oh = s.oh ∧ (State.setHold p b s).epoch = s.epoch
      ∧ (State.setHold p b s).pending = s.pending ∧ (State.setHold p b s).now = s.now
      ∧ (State.setHold p b s).showAt = s.showAt ∧ (State.setHold p b s).titleAt = s.titleAt
      ∧ (State.setHold p b s).holdAt = s.holdAt ∧ (State.setHold p b s).board = s.board
      ∧ (State.setHold p b s).segAt = s.segAt ∧ (State.setHold p b s).freedAt = s.freedAt
      ∧ (State.setHold p b s).reelAt = s.reelAt ∧ (State.setHold p b s).ctx = s.ctx
      ∧ (State.setHold p b s).slot = s.slot ∧ (State.setHold p b s).noticeAt = s.noticeAt
      ∧ (State.setHold p b s).routeAt = s.routeAt ∧ (State.setHold p b s).resetTaken = s.resetTaken :=
  ⟨rfl, rfl, rfl, rfl, rfl, rfl, rfl, rfl, rfl, rfl, rfl, rfl, rfl, rfl, rfl, rfl, rfl, rfl, rfl, rfl, rfl, rfl, rfl, rfl, rfl, rfl⟩

@[simp] theorem State.setSpacing_frame (s : State) (p : Port) (n : Nat) :
    (State.setSpacing p n s).tb = s.tb ∧ (State.setSpacing p n s).paths = s.paths ∧ (State.setSpacing p n s).st = s.st
      ∧ (State.setSpacing p n s).sq = s.sq ∧ (State.setSpacing p n s).bc = s.bc ∧ (State.setSpacing p n s).sg = s.sg
      ∧ (State.setSpacing p n s).rl = s.rl ∧ (State.setSpacing p n s).pc = s.pc ∧ (State.setSpacing p n s).nq = s.nq
      ∧ (State.setSpacing p n s).fri = s.fri ∧ (State.setSpacing p n s).oh = s.oh
      ∧ (State.setSpacing p n s).epoch = s.epoch ∧ (State.setSpacing p n s).pending = s.pending
      ∧ (State.setSpacing p n s).now = s.now ∧ (State.setSpacing p n s).showAt = s.showAt
      ∧ (State.setSpacing p n s).titleAt = s.titleAt ∧ (State.setSpacing p n s).holdAt = s.holdAt
      ∧ (State.setSpacing p n s).board = s.board ∧ (State.setSpacing p n s).segAt = s.segAt
      ∧ (State.setSpacing p n s).freedAt = s.freedAt ∧ (State.setSpacing p n s).reelAt = s.reelAt
      ∧ (State.setSpacing p n s).ctx = s.ctx ∧ (State.setSpacing p n s).slot = s.slot
      ∧ (State.setSpacing p n s).noticeAt = s.noticeAt ∧ (State.setSpacing p n s).routeAt = s.routeAt
      ∧ (State.setSpacing p n s).resetTaken = s.resetTaken :=
  ⟨rfl, rfl, rfl, rfl, rfl, rfl, rfl, rfl, rfl, rfl, rfl, rfl, rfl, rfl, rfl, rfl, rfl, rfl, rfl, rfl, rfl, rfl, rfl, rfl, rfl, rfl⟩

@[simp] theorem State.stage_frame (s : State) (p : Port) (c : PanelCell) (b : Bool) :
    (State.stage p c b s).tb = s.tb ∧ (State.stage p c b s).paths = s.paths ∧ (State.stage p c b s).st = s.st
      ∧ (State.stage p c b s).sq = s.sq ∧ (State.stage p c b s).bc = s.bc ∧ (State.stage p c b s).sg = s.sg
      ∧ (State.stage p c b s).rl = s.rl ∧ (State.stage p c b s).pc = s.pc ∧ (State.stage p c b s).nq = s.nq
      ∧ (State.stage p c b s).fri = s.fri ∧ (State.stage p c b s).oh = s.oh ∧ (State.stage p c b s).epoch = s.epoch
      ∧ (State.stage p c b s).pending = s.pending ∧ (State.stage p c b s).now = s.now
      ∧ (State.stage p c b s).showAt = s.showAt ∧ (State.stage p c b s).titleAt = s.titleAt
      ∧ (State.stage p c b s).holdAt = s.holdAt ∧ (State.stage p c b s).board = s.board
      ∧ (State.stage p c b s).segAt = s.segAt ∧ (State.stage p c b s).freedAt = s.freedAt
      ∧ (State.stage p c b s).reelAt = s.reelAt ∧ (State.stage p c b s).ctx = s.ctx
      ∧ (State.stage p c b s).slot = s.slot ∧ (State.stage p c b s).noticeAt = s.noticeAt
      ∧ (State.stage p c b s).routeAt = s.routeAt ∧ (State.stage p c b s).resetTaken = s.resetTaken :=
  ⟨rfl, rfl, rfl, rfl, rfl, rfl, rfl, rfl, rfl, rfl, rfl, rfl, rfl, rfl, rfl, rfl, rfl, rfl, rfl, rfl, rfl, rfl, rfl, rfl, rfl, rfl⟩

@[simp] theorem State.writeContent_frame (s : State) (a : Nat) (bytes : List Byte) :
    (State.writeContent a bytes s).tb = s.tb ∧ (State.writeContent a bytes s).paths = s.paths
      ∧ (State.writeContent a bytes s).st = s.st ∧ (State.writeContent a bytes s).sq = s.sq
      ∧ (State.writeContent a bytes s).bc = s.bc ∧ (State.writeContent a bytes s).rl = s.rl
      ∧ (State.writeContent a bytes s).pc = s.pc ∧ (State.writeContent a bytes s).nq = s.nq
      ∧ (State.writeContent a bytes s).pp = s.pp ∧ (State.writeContent a bytes s).fri = s.fri
      ∧ (State.writeContent a bytes s).oh = s.oh ∧ (State.writeContent a bytes s).epoch = s.epoch
      ∧ (State.writeContent a bytes s).pending = s.pending ∧ (State.writeContent a bytes s).now = s.now
      ∧ (State.writeContent a bytes s).showAt = s.showAt ∧ (State.writeContent a bytes s).titleAt = s.titleAt
      ∧ (State.writeContent a bytes s).holdAt = s.holdAt ∧ (State.writeContent a bytes s).board = s.board
      ∧ (State.writeContent a bytes s).reelAt = s.reelAt ∧ (State.writeContent a bytes s).ctx = s.ctx
      ∧ (State.writeContent a bytes s).slot = s.slot ∧ (State.writeContent a bytes s).noticeAt = s.noticeAt
      ∧ (State.writeContent a bytes s).port = s.port ∧ (State.writeContent a bytes s).routeAt = s.routeAt
      ∧ (State.writeContent a bytes s).resetTaken = s.resetTaken :=
  ⟨rfl, rfl, rfl, rfl, rfl, rfl, rfl, rfl, rfl, rfl, rfl, rfl, rfl, rfl, rfl, rfl, rfl, rfl, rfl, rfl, rfl, rfl, rfl, rfl, rfl⟩

@[simp] theorem State.deliverBoardMinute_frame (s : State) (m : Nat) :
    (State.deliverBoardMinute m s).tb = s.tb ∧ (State.deliverBoardMinute m s).st = s.st
      ∧ (State.deliverBoardMinute m s).sq = s.sq ∧ (State.deliverBoardMinute m s).bc = s.bc
      ∧ (State.deliverBoardMinute m s).sg = s.sg ∧ (State.deliverBoardMinute m s).rl = s.rl
      ∧ (State.deliverBoardMinute m s).pc = s.pc ∧ (State.deliverBoardMinute m s).nq = s.nq
      ∧ (State.deliverBoardMinute m s).pp = s.pp ∧ (State.deliverBoardMinute m s).fri = s.fri
      ∧ (State.deliverBoardMinute m s).oh = s.oh ∧ (State.deliverBoardMinute m s).epoch = s.epoch
      ∧ (State.deliverBoardMinute m s).pending = s.pending ∧ (State.deliverBoardMinute m s).now = s.now
      ∧ (State.deliverBoardMinute m s).showAt = s.showAt ∧ (State.deliverBoardMinute m s).titleAt = s.titleAt
      ∧ (State.deliverBoardMinute m s).holdAt = s.holdAt ∧ (State.deliverBoardMinute m s).board = s.board
      ∧ (State.deliverBoardMinute m s).segAt = s.segAt ∧ (State.deliverBoardMinute m s).freedAt = s.freedAt
      ∧ (State.deliverBoardMinute m s).reelAt = s.reelAt ∧ (State.deliverBoardMinute m s).ctx = s.ctx
      ∧ (State.deliverBoardMinute m s).slot = s.slot ∧ (State.deliverBoardMinute m s).noticeAt = s.noticeAt
      ∧ (State.deliverBoardMinute m s).port = s.port ∧ (State.deliverBoardMinute m s).routeAt = s.routeAt
      ∧ (State.deliverBoardMinute m s).resetTaken = s.resetTaken :=
  ⟨rfl, rfl, rfl, rfl, rfl, rfl, rfl, rfl, rfl, rfl, rfl, rfl, rfl, rfl, rfl, rfl, rfl, rfl, rfl, rfl, rfl, rfl, rfl, rfl, rfl, rfl, rfl⟩

@[simp] theorem State.deliverMinute_frame (s : State) (m : Nat) :
    (State.deliverMinute m s).tb = s.tb ∧ (State.deliverMinute m s).st = s.st ∧ (State.deliverMinute m s).sq = s.sq
      ∧ (State.deliverMinute m s).bc = s.bc ∧ (State.deliverMinute m s).sg = s.sg
      ∧ (State.deliverMinute m s).rl = s.rl ∧ (State.deliverMinute m s).pc = s.pc
      ∧ (State.deliverMinute m s).nq = s.nq ∧ (State.deliverMinute m s).pp = s.pp
      ∧ (State.deliverMinute m s).fri = s.fri ∧ (State.deliverMinute m s).oh = s.oh
      ∧ (State.deliverMinute m s).epoch = s.epoch ∧ (State.deliverMinute m s).pending = s.pending
      ∧ (State.deliverMinute m s).now = s.now ∧ (State.deliverMinute m s).showAt = s.showAt
      ∧ (State.deliverMinute m s).titleAt = s.titleAt ∧ (State.deliverMinute m s).holdAt = s.holdAt
      ∧ (State.deliverMinute m s).board = s.board ∧ (State.deliverMinute m s).segAt = s.segAt
      ∧ (State.deliverMinute m s).freedAt = s.freedAt ∧ (State.deliverMinute m s).reelAt = s.reelAt
      ∧ (State.deliverMinute m s).ctx = s.ctx ∧ (State.deliverMinute m s).slot = s.slot
      ∧ (State.deliverMinute m s).noticeAt = s.noticeAt ∧ (State.deliverMinute m s).port = s.port
      ∧ (State.deliverMinute m s).routeAt = s.routeAt ∧ (State.deliverMinute m s).resetTaken = s.resetTaken :=
  ⟨rfl, rfl, rfl, rfl, rfl, rfl, rfl, rfl, rfl, rfl, rfl, rfl, rfl, rfl, rfl, rfl, rfl, rfl, rfl, rfl, rfl, rfl, rfl, rfl, rfl, rfl, rfl⟩

@[simp] theorem State.showChange_frame (s : State) (n : Nat) :
    (State.showChange n s).tb = s.tb ∧ (State.showChange n s).paths = s.paths ∧ (State.showChange n s).st = s.st
      ∧ (State.showChange n s).sq = s.sq ∧ (State.showChange n s).sg = s.sg ∧ (State.showChange n s).rl = s.rl
      ∧ (State.showChange n s).pc = s.pc ∧ (State.showChange n s).nq = s.nq ∧ (State.showChange n s).pp = s.pp
      ∧ (State.showChange n s).fri = s.fri ∧ (State.showChange n s).oh = s.oh ∧ (State.showChange n s).epoch = s.epoch
      ∧ (State.showChange n s).pending = s.pending ∧ (State.showChange n s).now = s.now
      ∧ (State.showChange n s).showAt = s.showAt ∧ (State.showChange n s).titleAt = s.titleAt
      ∧ (State.showChange n s).holdAt = s.holdAt ∧ (State.showChange n s).segAt = s.segAt
      ∧ (State.showChange n s).freedAt = s.freedAt ∧ (State.showChange n s).reelAt = s.reelAt
      ∧ (State.showChange n s).ctx = s.ctx ∧ (State.showChange n s).slot = s.slot
      ∧ (State.showChange n s).noticeAt = s.noticeAt ∧ (State.showChange n s).port = s.port
      ∧ (State.showChange n s).routeAt = s.routeAt ∧ (State.showChange n s).resetTaken = s.resetTaken :=
  ⟨rfl, rfl, rfl, rfl, rfl, rfl, rfl, rfl, rfl, rfl, rfl, rfl, rfl, rfl, rfl, rfl, rfl, rfl, rfl, rfl, rfl, rfl, rfl, rfl, rfl, rfl⟩

@[simp] theorem State.boardMinute_frame (s : State) (m : Nat) :
    (State.boardMinute m s).tb = s.tb ∧ (State.boardMinute m s).paths = s.paths ∧ (State.boardMinute m s).st = s.st
      ∧ (State.boardMinute m s).sq = s.sq ∧ (State.boardMinute m s).sg = s.sg ∧ (State.boardMinute m s).rl = s.rl
      ∧ (State.boardMinute m s).pc = s.pc ∧ (State.boardMinute m s).nq = s.nq ∧ (State.boardMinute m s).pp = s.pp
      ∧ (State.boardMinute m s).fri = s.fri ∧ (State.boardMinute m s).oh = s.oh
      ∧ (State.boardMinute m s).epoch = s.epoch ∧ (State.boardMinute m s).pending = s.pending
      ∧ (State.boardMinute m s).now = s.now ∧ (State.boardMinute m s).showAt = s.showAt
      ∧ (State.boardMinute m s).titleAt = s.titleAt ∧ (State.boardMinute m s).holdAt = s.holdAt
      ∧ (State.boardMinute m s).segAt = s.segAt ∧ (State.boardMinute m s).freedAt = s.freedAt
      ∧ (State.boardMinute m s).reelAt = s.reelAt ∧ (State.boardMinute m s).ctx = s.ctx
      ∧ (State.boardMinute m s).slot = s.slot ∧ (State.boardMinute m s).noticeAt = s.noticeAt
      ∧ (State.boardMinute m s).port = s.port ∧ (State.boardMinute m s).routeAt = s.routeAt
      ∧ (State.boardMinute m s).resetTaken = s.resetTaken :=
  ⟨rfl, rfl, rfl, rfl, rfl, rfl, rfl, rfl, rfl, rfl, rfl, rfl, rfl, rfl, rfl, rfl, rfl, rfl, rfl, rfl, rfl, rfl, rfl, rfl, rfl, rfl⟩
/-! ## What a write reads as -/

@[simp] theorem State.port_setPort_same (s : State) (p : Port) (r : PortRec) : (s.setPort p r).port p = r := by
  simp [State.port, State.setPort]
theorem State.port_setPort_other (s : State) {p q : Port} (r : PortRec) (h : p ≠ q) : (s.setPort p r).port q = s.port q := by
  simp [State.port, State.setPort, Vector.getElem_set_ne, Fin.val_ne_of_ne h]
theorem State.port_setPort (s : State) (p q : Port) (r : PortRec) :
    (s.setPort p r).port q = if p = q then r else s.port q := by
  by_cases h : p = q
  · subst h; simp
  · simp [h, State.port_setPort_other]

@[simp] theorem State.ctx_setCtx_same (s : State) (p : Port) (c : Context) : (s.setCtx p c).ctx p = c := by
  simp [State.ctx, State.setCtx]
theorem State.ctx_setCtx_other (s : State) {p q : Port} (c : Context) (h : p ≠ q) : (s.setCtx p c).ctx q = s.ctx q := by
  simp [State.ctx, State.setCtx, Vector.getElem_set_ne, Fin.val_ne_of_ne h]
theorem State.ctx_setCtx (s : State) (p q : Port) (c : Context) :
    (s.setCtx p c).ctx q = if p = q then c else s.ctx q := by
  by_cases h : p = q
  · subst h; simp
  · simp [h, State.ctx_setCtx_other]

@[simp] theorem State.slot_setSlot_same (s : State) (p : Port) (x : Slot) : (s.setSlot p x).slot p = x := by
  simp [State.slot, State.setSlot]
theorem State.slot_setSlot_other (s : State) {p q : Port} (x : Slot) (h : p ≠ q) : (s.setSlot p x).slot q = s.slot q := by
  simp [State.slot, State.setSlot, Vector.getElem_set_ne, Fin.val_ne_of_ne h]
theorem State.slot_setSlot (s : State) (p q : Port) (x : Slot) :
    (s.setSlot p x).slot q = if p = q then x else s.slot q := by
  by_cases h : p = q
  · subst h; simp
  · simp [h, State.slot_setSlot_other]

@[simp] theorem State.board_setBoard_same (s : State) (p : Port) (b : Board) : (s.setBoard p b).board p = b := by
  simp [State.board, State.setBoard]
theorem State.board_setBoard_other (s : State) {p q : Port} (b : Board) (h : p ≠ q) :
    (s.setBoard p b).board q = s.board q := by
  simp [State.board, State.setBoard, Vector.getElem_set_ne, Fin.val_ne_of_ne h]

@[simp] theorem State.setSlot_notices (s : State) (p : Port) (x : Slot) : (s.setSlot p x).nq.notices = s.nq.notices := rfl
@[simp] theorem State.setSlot_noticeAt (s : State) (p : Port) (x : Slot) : (s.setSlot p x).noticeAt = s.noticeAt := rfl
@[simp] theorem State.dropNotice_slot (s : State) (k : DeskTag) : (s.dropNotice k).slot = s.slot := rfl
@[simp] theorem State.mapNotice_slot (s : State) (k : DeskTag) (f : Notice → Notice) : (State.mapNotice k f s).slot = s.slot := rfl
@[simp] theorem State.joinNotice_slot (s : State) (n : Notice) : (State.joinNotice n s).slot = s.slot := rfl

end Sys2Proof.Machine
end

