-- ==== Sys2Proof/Laws/Frames.lean ====
section
/-! SUPPORT. What each shared operation leaves alone: the fields of State it never touches, whatever it meets. -/
namespace Sys2Proof.Machine

/-! ## The two shapes every longer operation is made of -/

/-- A field that no step of a loop touches is not touched by the loop. -/
theorem foldl_keeps {α β γ : Type} (get : β → γ) (step : β → α → β) (h : ∀ b a, get (step b a) = get b) (l : List α) (b : β) :
    get (l.foldl step b) = get b := by
  induction l generalizing b with
  | nil => rfl
  | cons a l ih => rw [List.foldl_cons, ih, h]

/-- A property that every step of a loop keeps is kept by the loop. -/
theorem foldl_holds {α β : Type} (P : β → Prop) (step : β → α → β) (l : List α) (h : ∀ b a, P b → P (step b a)) {b : β}
    (hb : P b) : P (l.foldl step b) := by
  induction l generalizing b with
  | nil => exact hb
  | cons a l ih => exact ih (h b a hb)

@[simp] theorem State.serve_frame (s : State) (c : Claim) :
    (s.serve c).paths = s.paths ∧ (s.serve c).st = s.st ∧ (s.serve c).bc = s.bc ∧ (s.serve c).rl = s.rl
      ∧ (s.serve c).oh = s.oh ∧ (s.serve c).epoch = s.epoch ∧ (s.serve c).pending = s.pending := by
  unfold State.serve
  (repeat' split) <;> simp [*]

@[simp] theorem State.serveUpTo_frame (s : State) (n : Nat) :
    (State.serveUpTo n s).paths = s.paths ∧ (State.serveUpTo n s).st = s.st ∧ (State.serveUpTo n s).bc = s.bc
      ∧ (State.serveUpTo n s).rl = s.rl ∧ (State.serveUpTo n s).oh = s.oh ∧ (State.serveUpTo n s).epoch = s.epoch
      ∧ (State.serveUpTo n s).pending = s.pending := by
  induction n generalizing s with
  | zero => simp [State.serveUpTo]
  | succ n ih =>
    unfold State.serveUpTo
    (repeat' split) <;> simp [ih]

@[simp] theorem State.serveWaiting_frame (s : State)  :
    (s.serveWaiting).paths = s.paths ∧ (s.serveWaiting).st = s.st ∧ (s.serveWaiting).bc = s.bc
      ∧ (s.serveWaiting).rl = s.rl ∧ (s.serveWaiting).oh = s.oh ∧ (s.serveWaiting).epoch = s.epoch
      ∧ (s.serveWaiting).pending = s.pending := by
  unfold State.serveWaiting
  simp [*]

/-- What a claim's making and the places given around it leave alone. -/
@[simp] theorem State.forPorts_tb (s : State) (ps : List Port) (f : Port → State → State)
    (h : ∀ p t, (f p t).tb = t.tb) : (s.forPorts ps f).tb = s.tb := foldl_keeps (fun t : State => t.tb) _ (fun t p => h p t) ps s
@[simp] theorem State.forPorts_paths (s : State) (ps : List Port) (f : Port → State → State)
    (h : ∀ p t, (f p t).paths = t.paths) : (s.forPorts ps f).paths = s.paths := foldl_keeps (fun t : State => t.paths) _ (fun t p => h p t) ps s
@[simp] theorem State.withClaim_paths (s : State) (make : State → State) (h : ∀ t, (make t).paths = t.paths) :
    (s.withClaim make).paths = s.paths := by simp [State.withClaim, h]
@[simp] theorem State.forPorts_st (s : State) (ps : List Port) (f : Port → State → State)
    (h : ∀ p t, (f p t).st = t.st) : (s.forPorts ps f).st = s.st := foldl_keeps (fun t : State => t.st) _ (fun t p => h p t) ps s
@[simp] theorem State.withClaim_st (s : State) (make : State → State) (h : ∀ t, (make t).st = t.st) :
    (s.withClaim make).st = s.st := by simp [State.withClaim, h]
@[simp] theorem State.forPorts_sq (s : State) (ps : List Port) (f : Port → State → State)
    (h : ∀ p t, (f p t).sq = t.sq) : (s.forPorts ps f).sq = s.sq := foldl_keeps (fun t : State => t.sq) _ (fun t p => h p t) ps s
@[simp] theorem State.forPorts_bc (s : State) (ps : List Port) (f : Port → State → State)
    (h : ∀ p t, (f p t).bc = t.bc) : (s.forPorts ps f).bc = s.bc := foldl_keeps (fun t : State => t.bc) _ (fun t p => h p t) ps s
@[simp] theorem State.withClaim_bc (s : State) (make : State → State) (h : ∀ t, (make t).bc = t.bc) :
    (s.withClaim make).bc = s.bc := by simp [State.withClaim, h]
@[simp] theorem State.forPorts_sg (s : State) (ps : List Port) (f : Port → State → State)
    (h : ∀ p t, (f p t).sg = t.sg) : (s.forPorts ps f).sg = s.sg := foldl_keeps (fun t : State => t.sg) _ (fun t p => h p t) ps s
@[simp] theorem State.forPorts_rl (s : State) (ps : List Port) (f : Port → State → State)
    (h : ∀ p t, (f p t).rl = t.rl) : (s.forPorts ps f).rl = s.rl := foldl_keeps (fun t : State => t.rl) _ (fun t p => h p t) ps s
@[simp] theorem State.withClaim_rl (s : State) (make : State → State) (h : ∀ t, (make t).rl = t.rl) :
    (s.withClaim make).rl = s.rl := by simp [State.withClaim, h]
@[simp] theorem State.forPorts_pc (s : State) (ps : List Port) (f : Port → State → State)
    (h : ∀ p t, (f p t).pc = t.pc) : (s.forPorts ps f).pc = s.pc := foldl_keeps (fun t : State => t.pc) _ (fun t p => h p t) ps s
@[simp] theorem State.forPorts_nq (s : State) (ps : List Port) (f : Port → State → State)
    (h : ∀ p t, (f p t).nq = t.nq) : (s.forPorts ps f).nq = s.nq := foldl_keeps (fun t : State => t.nq) _ (fun t p => h p t) ps s
@[simp] theorem State.forPorts_pp (s : State) (ps : List Port) (f : Port → State → State)
    (h : ∀ p t, (f p t).pp = t.pp) : (s.forPorts ps f).pp = s.pp := foldl_keeps (fun t : State => t.pp) _ (fun t p => h p t) ps s
@[simp] theorem State.forPorts_fri (s : State) (ps : List Port) (f : Port → State → State)
    (h : ∀ p t, (f p t).fri = t.fri) : (s.forPorts ps f).fri = s.fri := foldl_keeps (fun t : State => t.fri) _ (fun t p => h p t) ps s
@[simp] theorem State.forPorts_oh (s : State) (ps : List Port) (f : Port → State → State)
    (h : ∀ p t, (f p t).oh = t.oh) : (s.forPorts ps f).oh = s.oh := foldl_keeps (fun t : State => t.oh) _ (fun t p => h p t) ps s
@[simp] theorem State.withClaim_oh (s : State) (make : State → State) (h : ∀ t, (make t).oh = t.oh) :
    (s.withClaim make).oh = s.oh := by simp [State.withClaim, h]
@[simp] theorem State.forPorts_epoch (s : State) (ps : List Port) (f : Port → State → State)
    (h : ∀ p t, (f p t).epoch = t.epoch) : (s.forPorts ps f).epoch = s.epoch := foldl_keeps (fun t : State => t.epoch) _ (fun t p => h p t) ps s
@[simp] theorem State.withClaim_epoch (s : State) (make : State → State) (h : ∀ t, (make t).epoch = t.epoch) :
    (s.withClaim make).epoch = s.epoch := by simp [State.withClaim, h]
@[simp] theorem State.forPorts_pending (s : State) (ps : List Port) (f : Port → State → State)
    (h : ∀ p t, (f p t).pending = t.pending) : (s.forPorts ps f).pending = s.pending := foldl_keeps (fun t : State => t.pending) _ (fun t p => h p t) ps s
@[simp] theorem State.withClaim_pending (s : State) (make : State → State) (h : ∀ t, (make t).pending = t.pending) :
    (s.withClaim make).pending = s.pending := by simp [State.withClaim, h]

@[simp] theorem State.reportStep_frame (s : State) (k : ReportKind) :
    (State.reportStep k s).paths = s.paths ∧ (State.reportStep k s).st = s.st ∧ (State.reportStep k s).bc = s.bc
      ∧ (State.reportStep k s).rl = s.rl ∧ (State.reportStep k s).oh = s.oh ∧ (State.reportStep k s).epoch = s.epoch
      ∧ (State.reportStep k s).pending = s.pending := by
  unfold State.reportStep
  (repeat' split) <;> simp [*]

@[simp] theorem State.showChanges_frame (s : State) (ns : List Nat) :
    (State.showChanges ns s).tb = s.tb ∧ (State.showChanges ns s).paths = s.paths ∧ (State.showChanges ns s).st = s.st
      ∧ (State.showChanges ns s).sq = s.sq ∧ (State.showChanges ns s).sg = s.sg ∧ (State.showChanges ns s).rl = s.rl
      ∧ (State.showChanges ns s).pc = s.pc ∧ (State.showChanges ns s).nq = s.nq ∧ (State.showChanges ns s).pp = s.pp
      ∧ (State.showChanges ns s).fri = s.fri ∧ (State.showChanges ns s).oh = s.oh
      ∧ (State.showChanges ns s).epoch = s.epoch ∧ (State.showChanges ns s).pending = s.pending := by
  unfold State.showChanges
  exact ⟨(foldl_keeps (fun t : State => t.tb) _ (by intros; simp) _ _).trans (by simp),
    (foldl_keeps (fun t : State => t.paths) _ (by intros; simp) _ _).trans (by simp),
    (foldl_keeps (fun t : State => t.st) _ (by intros; simp) _ _).trans (by simp),
    (foldl_keeps (fun t : State => t.sq) _ (by intros; simp) _ _).trans (by simp),
    (foldl_keeps (fun t : State => t.sg) _ (by intros; simp) _ _).trans (by simp),
    (foldl_keeps (fun t : State => t.rl) _ (by intros; simp) _ _).trans (by simp),
    (foldl_keeps (fun t : State => t.pc) _ (by intros; simp) _ _).trans (by simp),
    (foldl_keeps (fun t : State => t.nq) _ (by intros; simp) _ _).trans (by simp),
    (foldl_keeps (fun t : State => t.pp) _ (by intros; simp) _ _).trans (by simp),
    (foldl_keeps (fun t : State => t.fri) _ (by intros; simp) _ _).trans (by simp),
    (foldl_keeps (fun t : State => t.oh) _ (by intros; simp) _ _).trans (by simp),
    (foldl_keeps (fun t : State => t.epoch) _ (by intros; simp) _ _).trans (by simp),
    (foldl_keeps (fun t : State => t.pending) _ (by intros; simp) _ _).trans (by simp)⟩

@[simp] theorem State.settleTally_frame (s : State) (n : Nat) (b : Option Show) :
    (State.settleTally n b s).tb = s.tb ∧ (State.settleTally n b s).paths = s.paths
      ∧ (State.settleTally n b s).sq = s.sq ∧ (State.settleTally n b s).sg = s.sg
      ∧ (State.settleTally n b s).rl = s.rl ∧ (State.settleTally n b s).pc = s.pc
      ∧ (State.settleTally n b s).nq = s.nq ∧ (State.settleTally n b s).pp = s.pp
      ∧ (State.settleTally n b s).fri = s.fri ∧ (State.settleTally n b s).oh = s.oh
      ∧ (State.settleTally n b s).epoch = s.epoch ∧ (State.settleTally n b s).pending = s.pending := by
  unfold State.settleTally
  (repeat' split) <;> simp [*]

@[simp] theorem State.moveTally_frame (s : State) (n : Nat) (f : Show → Show) :
    (State.moveTally n f s).tb = s.tb ∧ (State.moveTally n f s).paths = s.paths ∧ (State.moveTally n f s).sq = s.sq
      ∧ (State.moveTally n f s).sg = s.sg ∧ (State.moveTally n f s).rl = s.rl ∧ (State.moveTally n f s).pc = s.pc
      ∧ (State.moveTally n f s).nq = s.nq ∧ (State.moveTally n f s).pp = s.pp ∧ (State.moveTally n f s).fri = s.fri
      ∧ (State.moveTally n f s).oh = s.oh ∧ (State.moveTally n f s).epoch = s.epoch
      ∧ (State.moveTally n f s).pending = s.pending := by
  unfold State.moveTally
  (repeat' split) <;> simp [*]

@[simp] theorem State.lowerHeld_frame (s : State) (n k : Nat) :
    (State.lowerHeld n k s).tb = s.tb ∧ (State.lowerHeld n k s).paths = s.paths ∧ (State.lowerHeld n k s).sq = s.sq
      ∧ (State.lowerHeld n k s).bc = s.bc ∧ (State.lowerHeld n k s).sg = s.sg ∧ (State.lowerHeld n k s).rl = s.rl
      ∧ (State.lowerHeld n k s).pc = s.pc ∧ (State.lowerHeld n k s).nq = s.nq ∧ (State.lowerHeld n k s).pp = s.pp
      ∧ (State.lowerHeld n k s).fri = s.fri ∧ (State.lowerHeld n k s).oh = s.oh
      ∧ (State.lowerHeld n k s).epoch = s.epoch ∧ (State.lowerHeld n k s).pending = s.pending := by
  unfold State.lowerHeld
  (repeat' split) <;> simp [*]

@[simp] theorem State.lapseHold_frame (s : State) (c : LapseCause) (time : Nat) (h : Hold) :
    (State.lapseHold c time h s).tb = s.tb ∧ (State.lapseHold c time h s).paths = s.paths
      ∧ (State.lapseHold c time h s).bc = s.bc ∧ (State.lapseHold c time h s).sg = s.sg
      ∧ (State.lapseHold c time h s).rl = s.rl ∧ (State.lapseHold c time h s).pc = s.pc
      ∧ (State.lapseHold c time h s).nq = s.nq ∧ (State.lapseHold c time h s).pp = s.pp
      ∧ (State.lapseHold c time h s).fri = s.fri ∧ (State.lapseHold c time h s).oh = s.oh
      ∧ (State.lapseHold c time h s).epoch = s.epoch ∧ (State.lapseHold c time h s).pending = s.pending := by
  unfold State.lapseHold
  simp [*]

@[simp] theorem State.lapseHolds_frame (s : State) (c : LapseCause) (time : Nat) (hs : List Hold) :
    (State.lapseHolds c time hs s).tb = s.tb ∧ (State.lapseHolds c time hs s).paths = s.paths
      ∧ (State.lapseHolds c time hs s).bc = s.bc ∧ (State.lapseHolds c time hs s).sg = s.sg
      ∧ (State.lapseHolds c time hs s).rl = s.rl ∧ (State.lapseHolds c time hs s).pc = s.pc
      ∧ (State.lapseHolds c time hs s).nq = s.nq ∧ (State.lapseHolds c time hs s).pp = s.pp
      ∧ (State.lapseHolds c time hs s).fri = s.fri ∧ (State.lapseHolds c time hs s).oh = s.oh
      ∧ (State.lapseHolds c time hs s).epoch = s.epoch ∧ (State.lapseHolds c time hs s).pending = s.pending := by
  unfold State.lapseHolds
  exact ⟨(foldl_keeps (fun t : State => t.tb) _ (by intros; simp) _ _).trans (by simp),
    (foldl_keeps (fun t : State => t.paths) _ (by intros; simp) _ _).trans (by simp),
    (foldl_keeps (fun t : State => t.bc) _ (by intros; simp) _ _).trans (by simp),
    (foldl_keeps (fun t : State => t.sg) _ (by intros; simp) _ _).trans (by simp),
    (foldl_keeps (fun t : State => t.rl) _ (by intros; simp) _ _).trans (by simp),
    (foldl_keeps (fun t : State => t.pc) _ (by intros; simp) _ _).trans (by simp),
    (foldl_keeps (fun t : State => t.nq) _ (by intros; simp) _ _).trans (by simp),
    (foldl_keeps (fun t : State => t.pp) _ (by intros; simp) _ _).trans (by simp),
    (foldl_keeps (fun t : State => t.fri) _ (by intros; simp) _ _).trans (by simp),
    (foldl_keeps (fun t : State => t.oh) _ (by intros; simp) _ _).trans (by simp),
    (foldl_keeps (fun t : State => t.epoch) _ (by intros; simp) _ _).trans (by simp),
    (foldl_keeps (fun t : State => t.pending) _ (by intros; simp) _ _).trans (by simp)⟩

@[simp] theorem State.endPass_frame (s : State) (n : Nat) (c : LapseCause) :
    (State.endPass n c s).tb = s.tb ∧ (State.endPass n c s).paths = s.paths ∧ (State.endPass n c s).sg = s.sg
      ∧ (State.endPass n c s).rl = s.rl ∧ (State.endPass n c s).pc = s.pc ∧ (State.endPass n c s).nq = s.nq
      ∧ (State.endPass n c s).pp = s.pp ∧ (State.endPass n c s).fri = s.fri ∧ (State.endPass n c s).oh = s.oh
      ∧ (State.endPass n c s).epoch = s.epoch ∧ (State.endPass n c s).pending = s.pending := by
  unfold State.endPass
  (repeat' split) <;> simp [*]

@[simp] theorem State.endPassPlaced_frame (s : State) (n : Nat) (c : LapseCause) :
    (State.endPassPlaced n c s).paths = s.paths ∧ (State.endPassPlaced n c s).rl = s.rl
      ∧ (State.endPassPlaced n c s).oh = s.oh ∧ (State.endPassPlaced n c s).epoch = s.epoch
      ∧ (State.endPassPlaced n c s).pending = s.pending := by
  unfold State.endPassPlaced
  (repeat' split) <;> simp [*]

@[simp] theorem State.dropEndNotices_frame (s : State) (n : Nat) :
    (State.dropEndNotices n s).tb = s.tb ∧ (State.dropEndNotices n s).st = s.st ∧ (State.dropEndNotices n s).sq = s.sq
      ∧ (State.dropEndNotices n s).bc = s.bc ∧ (State.dropEndNotices n s).sg = s.sg
      ∧ (State.dropEndNotices n s).rl = s.rl ∧ (State.dropEndNotices n s).pc = s.pc
      ∧ (State.dropEndNotices n s).nq = s.nq ∧ (State.dropEndNotices n s).pp = s.pp
      ∧ (State.dropEndNotices n s).fri = s.fri ∧ (State.dropEndNotices n s).oh = s.oh
      ∧ (State.dropEndNotices n s).epoch = s.epoch ∧ (State.dropEndNotices n s).pending = s.pending := by
  unfold State.dropEndNotices
  simp

/-- R44: what an order behind an end notice leaves alone, when the order itself leaves it alone. -/
theorem State.afterNotice_frame {α : Type} (s : State) (n : Nat) (act : State → State × α)
    (h : ∀ t : State, (act t).1.rl = t.rl ∧ (act t).1.oh = t.oh ∧ (act t).1.epoch = t.epoch ∧ (act t).1.pending = t.pending) :
    (State.afterNotice n act s).1.rl = s.rl ∧ (State.afterNotice n act s).1.oh = s.oh
      ∧ (State.afterNotice n act s).1.epoch = s.epoch ∧ (State.afterNotice n act s).1.pending = s.pending := by
  unfold State.afterNotice
  dsimp only
  (repeat' split) <;> simp [h]

/-- R44: the same for an order that names a hold key. -/
theorem State.afterKeyNotice_frame {α : Type} (s : State) (k : DeskTag) (act : State → State × α)
    (h : ∀ t : State, (act t).1.rl = t.rl ∧ (act t).1.oh = t.oh ∧ (act t).1.epoch = t.epoch ∧ (act t).1.pending = t.pending) :
    (State.afterKeyNotice k act s).1.rl = s.rl ∧ (State.afterKeyNotice k act s).1.oh = s.oh
      ∧ (State.afterKeyNotice k act s).1.epoch = s.epoch ∧ (State.afterKeyNotice k act s).1.pending = s.pending := by
  unfold State.afterKeyNotice
  (repeat' split) <;> first | exact State.afterNotice_frame s _ act h | exact h s

@[simp] theorem State.endNoticesDue_frame (s : State) (n : Nat) :
    (State.endNoticesDue n s).rl = s.rl ∧ (State.endNoticesDue n s).oh = s.oh
      ∧ (State.endNoticesDue n s).epoch = s.epoch ∧ (State.endNoticesDue n s).pending = s.pending := by
  have h := fun (t : State) k => State.afterNotice_frame t k (fun u => (u, ())) fun _ => ⟨rfl, rfl, rfl, rfl⟩
  unfold State.endNoticesDue
  exact ⟨foldl_keeps (fun t : State => t.rl) _ (fun t k => (h t k).1) _ _,
    foldl_keeps (fun t : State => t.oh) _ (fun t k => (h t k).2.1) _ _,
    foldl_keeps (fun t : State => t.epoch) _ (fun t k => (h t k).2.2.1) _ _,
    foldl_keeps (fun t : State => t.pending) _ (fun t k => (h t k).2.2.2) _ _⟩

@[simp] theorem State.lapseDue_frame (s : State) (n : Nat) (hs : List Hold) :
    (State.lapseDue n hs s).tb = s.tb ∧ (State.lapseDue n hs s).paths = s.paths ∧ (State.lapseDue n hs s).sg = s.sg
      ∧ (State.lapseDue n hs s).rl = s.rl ∧ (State.lapseDue n hs s).pc = s.pc ∧ (State.lapseDue n hs s).nq = s.nq
      ∧ (State.lapseDue n hs s).pp = s.pp ∧ (State.lapseDue n hs s).fri = s.fri ∧ (State.lapseDue n hs s).oh = s.oh
      ∧ (State.lapseDue n hs s).epoch = s.epoch ∧ (State.lapseDue n hs s).pending = s.pending := by
  unfold State.lapseDue
  exact ⟨(foldl_keeps (fun t : State => t.tb) _ (by intros; simp) _ _).trans (by simp),
    (foldl_keeps (fun t : State => t.paths) _ (by intros; simp) _ _).trans (by simp),
    (foldl_keeps (fun t : State => t.sg) _ (by intros; simp) _ _).trans (by simp),
    (foldl_keeps (fun t : State => t.rl) _ (by intros; simp) _ _).trans (by simp),
    (foldl_keeps (fun t : State => t.pc) _ (by intros; simp) _ _).trans (by simp),
    (foldl_keeps (fun t : State => t.nq) _ (by intros; simp) _ _).trans (by simp),
    (foldl_keeps (fun t : State => t.pp) _ (by intros; simp) _ _).trans (by simp),
    (foldl_keeps (fun t : State => t.fri) _ (by intros; simp) _ _).trans (by simp),
    (foldl_keeps (fun t : State => t.oh) _ (by intros; simp) _ _).trans (by simp),
    (foldl_keeps (fun t : State => t.epoch) _ (by intros; simp) _ _).trans (by simp),
    (foldl_keeps (fun t : State => t.pending) _ (by intros; simp) _ _).trans (by simp)⟩

@[simp] theorem State.expiryPass_frame (s : State) (n : Nat) :
    (State.expiryPass n s).paths = s.paths ∧ (State.expiryPass n s).rl = s.rl ∧ (State.expiryPass n s).oh = s.oh
      ∧ (State.expiryPass n s).epoch = s.epoch ∧ (State.expiryPass n s).pending = s.pending := by
  unfold State.expiryPass
  (repeat' split) <;> simp [*]

@[simp] theorem State.announce_frame (s : State) (n : Nat) (b : Show) :
    (State.announce n b s).tb = s.tb ∧ (State.announce n b s).paths = s.paths ∧ (State.announce n b s).st = s.st
      ∧ (State.announce n b s).sq = s.sq ∧ (State.announce n b s).sg = s.sg ∧ (State.announce n b s).rl = s.rl
      ∧ (State.announce n b s).pc = s.pc ∧ (State.announce n b s).nq = s.nq ∧ (State.announce n b s).pp = s.pp
      ∧ (State.announce n b s).fri = s.fri ∧ (State.announce n b s).oh = s.oh ∧ (State.announce n b s).epoch = s.epoch
      ∧ (State.announce n b s).pending = s.pending := by
  unfold State.announce
  (repeat' split) <;> simp [*]

@[simp] theorem State.evaluate_frame (s : State) (n : Nat) :
    (State.evaluate n s).tb = s.tb ∧ (State.evaluate n s).sq = s.sq ∧ (State.evaluate n s).bc = s.bc
      ∧ (State.evaluate n s).sg = s.sg ∧ (State.evaluate n s).rl = s.rl ∧ (State.evaluate n s).pc = s.pc
      ∧ (State.evaluate n s).nq = s.nq ∧ (State.evaluate n s).pp = s.pp ∧ (State.evaluate n s).fri = s.fri
      ∧ (State.evaluate n s).oh = s.oh ∧ (State.evaluate n s).epoch = s.epoch
      ∧ (State.evaluate n s).pending = s.pending := by
  unfold State.evaluate
  (repeat' split) <;> simp [*]

@[simp] theorem State.minutePass_frame (s : State) (m : Nat) :
    (State.minutePass m s).tb = s.tb ∧ (State.minutePass m s).sq = s.sq ∧ (State.minutePass m s).sg = s.sg
      ∧ (State.minutePass m s).rl = s.rl ∧ (State.minutePass m s).pc = s.pc ∧ (State.minutePass m s).nq = s.nq
      ∧ (State.minutePass m s).pp = s.pp ∧ (State.minutePass m s).fri = s.fri ∧ (State.minutePass m s).oh = s.oh
      ∧ (State.minutePass m s).epoch = s.epoch ∧ (State.minutePass m s).pending = s.pending := by
  unfold State.minutePass
  simp [*]

@[simp] theorem State.delayShow_frame (s : State) (n m : Nat) :
    (State.delayShow n m s).tb = s.tb ∧ (State.delayShow n m s).sq = s.sq ∧ (State.delayShow n m s).sg = s.sg
      ∧ (State.delayShow n m s).rl = s.rl ∧ (State.delayShow n m s).pc = s.pc ∧ (State.delayShow n m s).nq = s.nq
      ∧ (State.delayShow n m s).pp = s.pp ∧ (State.delayShow n m s).fri = s.fri ∧ (State.delayShow n m s).oh = s.oh
      ∧ (State.delayShow n m s).epoch = s.epoch ∧ (State.delayShow n m s).pending = s.pending := by
  unfold State.delayShow
  (repeat' split) <;> simp [*]

@[simp] theorem State.cancelShow_frame (s : State) (n : Nat) :
    (State.cancelShow n s).paths = s.paths ∧ (State.cancelShow n s).rl = s.rl ∧ (State.cancelShow n s).oh = s.oh
      ∧ (State.cancelShow n s).epoch = s.epoch ∧ (State.cancelShow n s).pending = s.pending := by
  unfold State.cancelShow
  (repeat' split) <;> simp [*]

@[simp] theorem State.mapShow_frame (s : State) (n : Nat) (f : Show → Show) :
    (State.mapShow n f s).tb = s.tb ∧ (State.mapShow n f s).paths = s.paths ∧ (State.mapShow n f s).sq = s.sq
      ∧ (State.mapShow n f s).bc = s.bc ∧ (State.mapShow n f s).sg = s.sg ∧ (State.mapShow n f s).rl = s.rl
      ∧ (State.mapShow n f s).pc = s.pc ∧ (State.mapShow n f s).nq = s.nq ∧ (State.mapShow n f s).pp = s.pp
      ∧ (State.mapShow n f s).fri = s.fri ∧ (State.mapShow n f s).oh = s.oh ∧ (State.mapShow n f s).epoch = s.epoch
      ∧ (State.mapShow n f s).pending = s.pending := by
  unfold State.mapShow
  (repeat' split) <;> simp [*]

@[simp] theorem State.addPin_frame (s : State) (n : Nat) :
    (State.addPin n s).tb = s.tb ∧ (State.addPin n s).paths = s.paths ∧ (State.addPin n s).st = s.st
      ∧ (State.addPin n s).sq = s.sq ∧ (State.addPin n s).bc = s.bc ∧ (State.addPin n s).rl = s.rl
      ∧ (State.addPin n s).pc = s.pc ∧ (State.addPin n s).nq = s.nq ∧ (State.addPin n s).pp = s.pp
      ∧ (State.addPin n s).fri = s.fri ∧ (State.addPin n s).oh = s.oh ∧ (State.addPin n s).epoch = s.epoch
      ∧ (State.addPin n s).pending = s.pending := by
  unfold State.addPin
  (repeat' split) <;> simp [*]

@[simp] theorem State.releasePin_frame (s : State) (n : Nat) :
    (State.releasePin n s).paths = s.paths ∧ (State.releasePin n s).st = s.st ∧ (State.releasePin n s).bc = s.bc
      ∧ (State.releasePin n s).rl = s.rl ∧ (State.releasePin n s).oh = s.oh ∧ (State.releasePin n s).epoch = s.epoch
      ∧ (State.releasePin n s).pending = s.pending := by
  unfold State.releasePin
  (repeat' split) <;> simp [*]

@[simp] theorem State.fillPrefetch_frame (s : State) (p : Port) (r : Run) (i : Nat) (w : ReelWord) (b : Bool) :
    (State.fillPrefetch p r i w b s).tb = s.tb ∧ (State.fillPrefetch p r i w b s).paths = s.paths
      ∧ (State.fillPrefetch p r i w b s).st = s.st ∧ (State.fillPrefetch p r i w b s).sq = s.sq
      ∧ (State.fillPrefetch p r i w b s).bc = s.bc ∧ (State.fillPrefetch p r i w b s).rl = s.rl
      ∧ (State.fillPrefetch p r i w b s).nq = s.nq ∧ (State.fillPrefetch p r i w b s).pp = s.pp
      ∧ (State.fillPrefetch p r i w b s).fri = s.fri ∧ (State.fillPrefetch p r i w b s).oh = s.oh
      ∧ (State.fillPrefetch p r i w b s).epoch = s.epoch ∧ (State.fillPrefetch p r i w b s).pending = s.pending := by
  unfold State.fillPrefetch
  (repeat' split) <;> simp [*]

@[simp] theorem State.prefetch_frame (s : State) (p : Port) :
    (State.prefetch p s).tb = s.tb ∧ (State.prefetch p s).paths = s.paths ∧ (State.prefetch p s).st = s.st
      ∧ (State.prefetch p s).sq = s.sq ∧ (State.prefetch p s).bc = s.bc ∧ (State.prefetch p s).rl = s.rl
      ∧ (State.prefetch p s).nq = s.nq ∧ (State.prefetch p s).pp = s.pp ∧ (State.prefetch p s).fri = s.fri
      ∧ (State.prefetch p s).oh = s.oh ∧ (State.prefetch p s).epoch = s.epoch
      ∧ (State.prefetch p s).pending = s.pending := by
  unfold State.prefetch
  (repeat' split) <;> simp [*]

@[simp] theorem State.markWord_frame (s : State) (p : Port) :
    (State.markWord p s).paths = s.paths ∧ (State.markWord p s).st = s.st ∧ (State.markWord p s).bc = s.bc
      ∧ (State.markWord p s).rl = s.rl ∧ (State.markWord p s).oh = s.oh ∧ (State.markWord p s).epoch = s.epoch
      ∧ (State.markWord p s).pending = s.pending := by
  unfold State.markWord
  split
  · simp
  · split
    · exact ⟨State.withClaim_paths _ _ (fun t => by split <;> simp),
        State.withClaim_st _ _ (fun t => by split <;> simp),
        State.withClaim_bc _ _ (fun t => by split <;> simp),
        State.withClaim_rl _ _ (fun t => by split <;> simp),
        State.withClaim_oh _ _ (fun t => by split <;> simp),
        State.withClaim_epoch _ _ (fun t => by split <;> simp),
        State.withClaim_pending _ _ (fun t => by split <;> simp)⟩
    · simp

@[simp] theorem State.lowerBinding_frame (s : State) (n : Nat) :
    (State.lowerBinding n s).tb = s.tb ∧ (State.lowerBinding n s).paths = s.paths ∧ (State.lowerBinding n s).st = s.st
      ∧ (State.lowerBinding n s).sq = s.sq ∧ (State.lowerBinding n s).bc = s.bc ∧ (State.lowerBinding n s).sg = s.sg
      ∧ (State.lowerBinding n s).pc = s.pc ∧ (State.lowerBinding n s).nq = s.nq ∧ (State.lowerBinding n s).pp = s.pp
      ∧ (State.lowerBinding n s).fri = s.fri ∧ (State.lowerBinding n s).oh = s.oh
      ∧ (State.lowerBinding n s).epoch = s.epoch ∧ (State.lowerBinding n s).pending = s.pending := by
  unfold State.lowerBinding
  (repeat' split) <;> simp [*]

@[simp] theorem State.releaseSome_frame (s : State) (x : Option Nat) :
    (State.releaseSome x s).paths = s.paths ∧ (State.releaseSome x s).st = s.st ∧ (State.releaseSome x s).bc = s.bc
      ∧ (State.releaseSome x s).rl = s.rl ∧ (State.releaseSome x s).oh = s.oh
      ∧ (State.releaseSome x s).epoch = s.epoch ∧ (State.releaseSome x s).pending = s.pending := by
  unfold State.releaseSome
  (repeat' split) <;> simp [*]

@[simp] theorem State.endRun_frame (s : State) (p : Port) (e : EndReason) (f x : Option Nat) :
    (State.endRun p e f x s).paths = s.paths ∧ (State.endRun p e f x s).st = s.st ∧ (State.endRun p e f x s).bc = s.bc
      ∧ (State.endRun p e f x s).oh = s.oh ∧ (State.endRun p e f x s).epoch = s.epoch
      ∧ (State.endRun p e f x s).pending = s.pending := by
  unfold State.endRun
  (repeat' split) <;> simp [*]

@[simp] theorem State.breakRun_frame (s : State) (p : Port) (e : EndReason) :
    (State.breakRun p e s).paths = s.paths ∧ (State.breakRun p e s).st = s.st ∧ (State.breakRun p e s).bc = s.bc
      ∧ (State.breakRun p e s).oh = s.oh ∧ (State.breakRun p e s).epoch = s.epoch
      ∧ (State.breakRun p e s).pending = s.pending := by
  unfold State.breakRun
  (repeat' split) <;> simp [*]

@[simp] theorem State.portEndsRun_frame (s : State) (p : Port) (e : EndReason) :
    (State.portEndsRun p e s).paths = s.paths ∧ (State.portEndsRun p e s).st = s.st
      ∧ (State.portEndsRun p e s).bc = s.bc ∧ (State.portEndsRun p e s).oh = s.oh
      ∧ (State.portEndsRun p e s).epoch = s.epoch ∧ (State.portEndsRun p e s).pending = s.pending := by
  unfold State.portEndsRun
  (repeat' split) <;> simp [*]

@[simp] theorem State.haltCheck_frame (s : State) (p : Port) :
    (State.haltCheck p s).paths = s.paths ∧ (State.haltCheck p s).st = s.st ∧ (State.haltCheck p s).bc = s.bc
      ∧ (State.haltCheck p s).oh = s.oh ∧ (State.haltCheck p s).epoch = s.epoch
      ∧ (State.haltCheck p s).pending = s.pending := by
  unfold State.haltCheck
  (repeat' split) <;> simp [*]

@[simp] theorem State.wordEnd_frame (s : State) (p : Port) :
    (State.wordEnd p s).paths = s.paths ∧ (State.wordEnd p s).st = s.st ∧ (State.wordEnd p s).bc = s.bc
      ∧ (State.wordEnd p s).oh = s.oh ∧ (State.wordEnd p s).epoch = s.epoch ∧ (State.wordEnd p s).pending = s.pending := by
  unfold State.wordEnd
  dsimp only
  (repeat' split) <;> simp

@[simp] theorem State.suspend_frame (s : State) (p : Port) :
    (State.suspend p s).paths = s.paths ∧ (State.suspend p s).st = s.st ∧ (State.suspend p s).bc = s.bc
      ∧ (State.suspend p s).oh = s.oh ∧ (State.suspend p s).epoch = s.epoch ∧ (State.suspend p s).pending = s.pending := by
  unfold State.suspend
  (repeat' split) <;> simp [*]

@[simp] theorem State.resume_frame (s : State) (p : Port) :
    (State.resume p s).tb = s.tb ∧ (State.resume p s).paths = s.paths ∧ (State.resume p s).st = s.st
      ∧ (State.resume p s).sq = s.sq ∧ (State.resume p s).bc = s.bc ∧ (State.resume p s).sg = s.sg
      ∧ (State.resume p s).rl = s.rl ∧ (State.resume p s).nq = s.nq ∧ (State.resume p s).pp = s.pp
      ∧ (State.resume p s).fri = s.fri ∧ (State.resume p s).oh = s.oh ∧ (State.resume p s).epoch = s.epoch
      ∧ (State.resume p s).pending = s.pending := by
  unfold State.resume
  (repeat' split) <;> simp [*]

@[simp] theorem State.restartWord_frame (s : State) (p : Port) :
    (State.restartWord p s).paths = s.paths ∧ (State.restartWord p s).st = s.st ∧ (State.restartWord p s).bc = s.bc
      ∧ (State.restartWord p s).oh = s.oh ∧ (State.restartWord p s).epoch = s.epoch
      ∧ (State.restartWord p s).pending = s.pending := by
  unfold State.restartWord
  (repeat' split) <;> simp [*]

@[simp] theorem State.flushStaging_frame (s : State) (p : Port) :
    (State.flushStaging p s).paths = s.paths ∧ (State.flushStaging p s).st = s.st ∧ (State.flushStaging p s).bc = s.bc
      ∧ (State.flushStaging p s).oh = s.oh ∧ (State.flushStaging p s).epoch = s.epoch
      ∧ (State.flushStaging p s).pending = s.pending := by
  unfold State.flushStaging
  (repeat' split) <;> simp [*]

@[simp] theorem State.moveRecords_frame (s : State) (p : Port) (l : Option Shown) (n : Option Notice) :
    (State.moveRecords p l n s).tb = s.tb ∧ (State.moveRecords p l n s).paths = s.paths
      ∧ (State.moveRecords p l n s).st = s.st ∧ (State.moveRecords p l n s).sq = s.sq
      ∧ (State.moveRecords p l n s).bc = s.bc ∧ (State.moveRecords p l n s).sg = s.sg
      ∧ (State.moveRecords p l n s).rl = s.rl ∧ (State.moveRecords p l n s).pc = s.pc
      ∧ (State.moveRecords p l n s).pp = s.pp ∧ (State.moveRecords p l n s).fri = s.fri
      ∧ (State.moveRecords p l n s).oh = s.oh ∧ (State.moveRecords p l n s).epoch = s.epoch
      ∧ (State.moveRecords p l n s).pending = s.pending := by
  unfold State.moveRecords
  dsimp only
  (repeat' split) <;> simp

@[simp] theorem State.tellTakeover_frame (s : State) (p : Port) (a b : Bool) :
    (State.tellTakeover p a b s).paths = s.paths ∧ (State.tellTakeover p a b s).st = s.st
      ∧ (State.tellTakeover p a b s).bc = s.bc ∧ (State.tellTakeover p a b s).oh = s.oh
      ∧ (State.tellTakeover p a b s).epoch = s.epoch ∧ (State.tellTakeover p a b s).pending = s.pending := by
  unfold State.tellTakeover
  (repeat' split) <;> simp [*]

@[simp] theorem State.selectPort_frame (s : State) (p : Port) :
    (State.selectPort p s).paths = s.paths ∧ (State.selectPort p s).st = s.st ∧ (State.selectPort p s).bc = s.bc
      ∧ (State.selectPort p s).oh = s.oh ∧ (State.selectPort p s).epoch = s.epoch
      ∧ (State.selectPort p s).pending = s.pending := by
  unfold State.selectPort
  dsimp only
  (repeat' split) <;> simp

@[simp] theorem State.selectPorts_frame (s : State) (ps : PortSet) :
    (State.selectPorts ps s).paths = s.paths ∧ (State.selectPorts ps s).st = s.st ∧ (State.selectPorts ps s).bc = s.bc
      ∧ (State.selectPorts ps s).oh = s.oh ∧ (State.selectPorts ps s).epoch = s.epoch
      ∧ (State.selectPorts ps s).pending = s.pending := by
  unfold State.selectPorts
  exact ⟨(foldl_keeps (fun t : State => t.paths) _ (by intros; simp) _ _).trans (by simp),
    (foldl_keeps (fun t : State => t.st) _ (by intros; simp) _ _).trans (by simp),
    (foldl_keeps (fun t : State => t.bc) _ (by intros; simp) _ _).trans (by simp),
    (foldl_keeps (fun t : State => t.oh) _ (by intros; simp) _ _).trans (by simp),
    (foldl_keeps (fun t : State => t.epoch) _ (by intros; simp) _ _).trans (by simp),
    (foldl_keeps (fun t : State => t.pending) _ (by intros; simp) _ _).trans (by simp)⟩

@[simp] theorem State.enterLinking_frame (s : State) (p : Port) :
    (State.enterLinking p s).paths = s.paths ∧ (State.enterLinking p s).st = s.st ∧ (State.enterLinking p s).bc = s.bc
      ∧ (State.enterLinking p s).oh = s.oh ∧ (State.enterLinking p s).epoch = s.epoch
      ∧ (State.enterLinking p s).pending = s.pending := by
  unfold State.enterLinking
  simp [*]

@[simp] theorem State.addPortClaim_frame (s : State) (p : Port) (e : PortEvent) :
    (State.addPortClaim p e s).paths = s.paths ∧ (State.addPortClaim p e s).st = s.st
      ∧ (State.addPortClaim p e s).bc = s.bc ∧ (State.addPortClaim p e s).rl = s.rl
      ∧ (State.addPortClaim p e s).oh = s.oh ∧ (State.addPortClaim p e s).epoch = s.epoch
      ∧ (State.addPortClaim p e s).pending = s.pending := by
  unfold State.addPortClaim
  simp [*]

@[simp] theorem State.claimRestore_frame (s : State) (p : Port) (d : Option RestoreDue) :
    (State.claimRestore p d s).paths = s.paths ∧ (State.claimRestore p d s).st = s.st
      ∧ (State.claimRestore p d s).bc = s.bc ∧ (State.claimRestore p d s).rl = s.rl
      ∧ (State.claimRestore p d s).oh = s.oh ∧ (State.claimRestore p d s).epoch = s.epoch
      ∧ (State.claimRestore p d s).pending = s.pending := by
  unfold State.claimRestore
  (repeat' split) <;> simp [*]

@[simp] theorem State.cutFirst_frame (s : State) (p : Port) :
    (State.cutFirst p s).tb = s.tb ∧ (State.cutFirst p s).paths = s.paths ∧ (State.cutFirst p s).st = s.st
      ∧ (State.cutFirst p s).sq = s.sq ∧ (State.cutFirst p s).bc = s.bc ∧ (State.cutFirst p s).sg = s.sg
      ∧ (State.cutFirst p s).rl = s.rl ∧ (State.cutFirst p s).nq = s.nq ∧ (State.cutFirst p s).pp = s.pp
      ∧ (State.cutFirst p s).fri = s.fri ∧ (State.cutFirst p s).oh = s.oh ∧ (State.cutFirst p s).epoch = s.epoch
      ∧ (State.cutFirst p s).pending = s.pending := by
  unfold State.cutFirst
  (repeat' split) <;> simp

@[simp] theorem State.linkReady_frame (s : State) (p : Port) :
    (State.linkReady p s).paths = s.paths ∧ (State.linkReady p s).st = s.st ∧ (State.linkReady p s).oh = s.oh
      ∧ (State.linkReady p s).epoch = s.epoch ∧ (State.linkReady p s).pending = s.pending := by
  unfold State.linkReady
  simp [*]

@[simp] theorem State.slipPort_frame (s : State) (p : Port) :
    (State.slipPort p s).paths = s.paths ∧ (State.slipPort p s).st = s.st ∧ (State.slipPort p s).bc = s.bc
      ∧ (State.slipPort p s).oh = s.oh ∧ (State.slipPort p s).epoch = s.epoch
      ∧ (State.slipPort p s).pending = s.pending := by
  unfold State.slipPort
  simp [*]

@[simp] theorem State.noteStall_frame (s : State) (p : Port) (c : StallCause) (f : PortState) :
    (State.noteStall p c f s).paths = s.paths ∧ (State.noteStall p c f s).st = s.st
      ∧ (State.noteStall p c f s).bc = s.bc ∧ (State.noteStall p c f s).rl = s.rl
      ∧ (State.noteStall p c f s).oh = s.oh ∧ (State.noteStall p c f s).epoch = s.epoch
      ∧ (State.noteStall p c f s).pending = s.pending := by
  unfold State.noteStall
  (repeat' split) <;> simp [*]

@[simp] theorem State.stall_frame (s : State) (p : Port) (c : StallCause) :
    (State.stall p c s).paths = s.paths ∧ (State.stall p c s).st = s.st ∧ (State.stall p c s).bc = s.bc
      ∧ (State.stall p c s).oh = s.oh ∧ (State.stall p c s).epoch = s.epoch ∧ (State.stall p c s).pending = s.pending := by
  unfold State.stall
  simp [*]

@[simp] theorem State.drainDone_frame (s : State) (p : Port) :
    (State.drainDone p s).paths = s.paths ∧ (State.drainDone p s).st = s.st ∧ (State.drainDone p s).bc = s.bc
      ∧ (State.drainDone p s).oh = s.oh ∧ (State.drainDone p s).epoch = s.epoch
      ∧ (State.drainDone p s).pending = s.pending := by
  unfold State.drainDone
  (repeat' split) <;> simp [*]

@[simp] theorem State.flushDraining_frame (s : State) (p : Port) :
    (State.flushDraining p s).paths = s.paths ∧ (State.flushDraining p s).st = s.st
      ∧ (State.flushDraining p s).bc = s.bc ∧ (State.flushDraining p s).oh = s.oh
      ∧ (State.flushDraining p s).epoch = s.epoch ∧ (State.flushDraining p s).pending = s.pending := by
  unfold State.flushDraining
  simp [*]

@[simp] theorem State.leaveLive_frame (s : State) (p : Port) :
    (State.leaveLive p s).paths = s.paths ∧ (State.leaveLive p s).st = s.st ∧ (State.leaveLive p s).bc = s.bc
      ∧ (State.leaveLive p s).oh = s.oh ∧ (State.leaveLive p s).epoch = s.epoch
      ∧ (State.leaveLive p s).pending = s.pending := by
  unfold State.leaveLive
  simp [*]

@[simp] theorem State.modeChange_frame (s : State) (p : Port) (m : PanelMode) :
    (State.modeChange p m s).paths = s.paths ∧ (State.modeChange p m s).st = s.st ∧ (State.modeChange p m s).oh = s.oh
      ∧ (State.modeChange p m s).epoch = s.epoch ∧ (State.modeChange p m s).pending = s.pending := by
  unfold State.modeChange
  (repeat' split) <;> simp [*]

@[simp] theorem State.wake_frame (s : State) (k : DeskTag) (n : Nat) (p : Port) :
    (State.wake k n p s).paths = s.paths ∧ (State.wake k n p s).st = s.st ∧ (State.wake k n p s).oh = s.oh
      ∧ (State.wake k n p s).epoch = s.epoch ∧ (State.wake k n p s).pending = s.pending := by
  unfold State.wake
  simp [*]

@[simp] theorem State.editShow_frame (s : State) (e : ShowEdit) (x : Show) :
    (State.editShow e x s).tb = s.tb ∧ (State.editShow e x s).sq = s.sq ∧ (State.editShow e x s).sg = s.sg
      ∧ (State.editShow e x s).rl = s.rl ∧ (State.editShow e x s).pc = s.pc ∧ (State.editShow e x s).nq = s.nq
      ∧ (State.editShow e x s).pp = s.pp ∧ (State.editShow e x s).fri = s.fri ∧ (State.editShow e x s).oh = s.oh
      ∧ (State.editShow e x s).epoch = s.epoch ∧ (State.editShow e x s).pending = s.pending := by
  unfold State.editShow
  dsimp only
  (repeat' split) <;> simp

@[simp] theorem State.setSegState_frame (s : State) (n : Nat) (x : SegState) :
    (State.setSegState n x s).tb = s.tb ∧ (State.setSegState n x s).paths = s.paths
      ∧ (State.setSegState n x s).st = s.st ∧ (State.setSegState n x s).sq = s.sq
      ∧ (State.setSegState n x s).bc = s.bc ∧ (State.setSegState n x s).rl = s.rl
      ∧ (State.setSegState n x s).pc = s.pc ∧ (State.setSegState n x s).nq = s.nq
      ∧ (State.setSegState n x s).pp = s.pp ∧ (State.setSegState n x s).fri = s.fri
      ∧ (State.setSegState n x s).oh = s.oh ∧ (State.setSegState n x s).epoch = s.epoch
      ∧ (State.setSegState n x s).pending = s.pending := by
  unfold State.setSegState
  (repeat' split) <;> simp [*]

@[simp] theorem State.retireSeg_frame (s : State) (n : Nat) :
    (State.retireSeg n s).tb = s.tb ∧ (State.retireSeg n s).paths = s.paths ∧ (State.retireSeg n s).st = s.st
      ∧ (State.retireSeg n s).sq = s.sq ∧ (State.retireSeg n s).bc = s.bc ∧ (State.retireSeg n s).rl = s.rl
      ∧ (State.retireSeg n s).pc = s.pc ∧ (State.retireSeg n s).nq = s.nq ∧ (State.retireSeg n s).pp = s.pp
      ∧ (State.retireSeg n s).fri = s.fri ∧ (State.retireSeg n s).oh = s.oh ∧ (State.retireSeg n s).epoch = s.epoch
      ∧ (State.retireSeg n s).pending = s.pending := by
  unfold State.retireSeg
  (repeat' split) <;> simp

@[simp] theorem State.writeLoad_frame (s : State) (c : List Byte) :
    (State.writeLoad c s).tb = s.tb ∧ (State.writeLoad c s).paths = s.paths ∧ (State.writeLoad c s).st = s.st
      ∧ (State.writeLoad c s).sq = s.sq ∧ (State.writeLoad c s).bc = s.bc ∧ (State.writeLoad c s).rl = s.rl
      ∧ (State.writeLoad c s).pc = s.pc ∧ (State.writeLoad c s).nq = s.nq ∧ (State.writeLoad c s).pp = s.pp
      ∧ (State.writeLoad c s).fri = s.fri ∧ (State.writeLoad c s).oh = s.oh ∧ (State.writeLoad c s).epoch = s.epoch
      ∧ (State.writeLoad c s).pending = s.pending := by
  unfold State.writeLoad
  (repeat' split) <;> simp [*]

@[simp] theorem State.raiseBinding_frame (s : State) (n : Nat) :
    (State.raiseBinding n s).tb = s.tb ∧ (State.raiseBinding n s).paths = s.paths ∧ (State.raiseBinding n s).st = s.st
      ∧ (State.raiseBinding n s).sq = s.sq ∧ (State.raiseBinding n s).bc = s.bc ∧ (State.raiseBinding n s).sg = s.sg
      ∧ (State.raiseBinding n s).pc = s.pc ∧ (State.raiseBinding n s).nq = s.nq ∧ (State.raiseBinding n s).pp = s.pp
      ∧ (State.raiseBinding n s).fri = s.fri ∧ (State.raiseBinding n s).oh = s.oh
      ∧ (State.raiseBinding n s).epoch = s.epoch ∧ (State.raiseBinding n s).pending = s.pending := by
  unfold State.raiseBinding
  simp [*]

@[simp] theorem State.closePicture_frame (s : State) (p : Port) :
    (State.closePicture p s).tb = s.tb ∧ (State.closePicture p s).paths = s.paths ∧ (State.closePicture p s).st = s.st
      ∧ (State.closePicture p s).sq = s.sq ∧ (State.closePicture p s).bc = s.bc ∧ (State.closePicture p s).sg = s.sg
      ∧ (State.closePicture p s).rl = s.rl ∧ (State.closePicture p s).pc = s.pc ∧ (State.closePicture p s).nq = s.nq
      ∧ (State.closePicture p s).fri = s.fri ∧ (State.closePicture p s).oh = s.oh
      ∧ (State.closePicture p s).epoch = s.epoch ∧ (State.closePicture p s).pending = s.pending := by
  unfold State.closePicture
  (repeat' split) <;> simp [*]

@[simp] theorem State.startRun_frame (s : State) (o : StartOrder) (i : Nat) (w : ReelWord) :
    (State.startRun o i w s).paths = s.paths ∧ (State.startRun o i w s).st = s.st ∧ (State.startRun o i w s).bc = s.bc
      ∧ (State.startRun o i w s).oh = s.oh ∧ (State.startRun o i w s).epoch = s.epoch
      ∧ (State.startRun o i w s).pending = s.pending := by
  unfold State.startRun
  simp [*]

@[simp] theorem State.haltRun_frame (s : State) (p : Port) (r : Run) :
    (State.haltRun p r s).paths = s.paths ∧ (State.haltRun p r s).st = s.st ∧ (State.haltRun p r s).bc = s.bc
      ∧ (State.haltRun p r s).oh = s.oh ∧ (State.haltRun p r s).epoch = s.epoch
      ∧ (State.haltRun p r s).pending = s.pending := by
  unfold State.haltRun
  simp [*]

@[simp] theorem State.holdPin_frame (s : State) (b : NoticeBody) :
    (State.holdPin b s).tb = s.tb ∧ (State.holdPin b s).paths = s.paths ∧ (State.holdPin b s).st = s.st
      ∧ (State.holdPin b s).sq = s.sq ∧ (State.holdPin b s).bc = s.bc ∧ (State.holdPin b s).rl = s.rl
      ∧ (State.holdPin b s).pc = s.pc ∧ (State.holdPin b s).nq = s.nq ∧ (State.holdPin b s).pp = s.pp
      ∧ (State.holdPin b s).fri = s.fri ∧ (State.holdPin b s).oh = s.oh ∧ (State.holdPin b s).epoch = s.epoch
      ∧ (State.holdPin b s).pending = s.pending := by
  unfold State.holdPin
  (repeat' split) <;> simp [*]

@[simp] theorem State.showEffect_frame (s : State) (b : Option ShowBinding) :
    (State.showEffect b s).rl = s.rl ∧ (State.showEffect b s).oh = s.oh ∧ (State.showEffect b s).epoch = s.epoch
      ∧ (State.showEffect b s).pending = s.pending := by
  unfold State.showEffect
  (repeat' split) <;> simp [*]

@[simp] theorem State.postNotice_frame (s : State) (o : PostOrder) :
    (State.postNotice o s).oh = s.oh ∧ (State.postNotice o s).epoch = s.epoch
      ∧ (State.postNotice o s).pending = s.pending := by
  unfold State.postNotice
  simp [*]

@[simp] theorem State.releaseNotice_frame (s : State) (n : Notice) :
    (State.releaseNotice n s).paths = s.paths ∧ (State.releaseNotice n s).st = s.st
      ∧ (State.releaseNotice n s).bc = s.bc ∧ (State.releaseNotice n s).rl = s.rl
      ∧ (State.releaseNotice n s).oh = s.oh ∧ (State.releaseNotice n s).epoch = s.epoch
      ∧ (State.releaseNotice n s).pending = s.pending := by
  unfold State.releaseNotice
  (repeat' split) <;> simp [*]

@[simp] theorem State.closeNotice_frame (s : State) (time : Nat) (n : Notice) :
    (State.closeNotice time n s).paths = s.paths ∧ (State.closeNotice time n s).st = s.st
      ∧ (State.closeNotice time n s).bc = s.bc ∧ (State.closeNotice time n s).oh = s.oh
      ∧ (State.closeNotice time n s).epoch = s.epoch ∧ (State.closeNotice time n s).pending = s.pending := by
  unfold State.closeNotice
  refine ⟨?_, ?_, ?_, ?_, ?_, ?_⟩ <;> simp [*]

@[simp] theorem State.withdraw_frame (s : State) (n : Notice) :
    (State.withdraw n s).paths = s.paths ∧ (State.withdraw n s).st = s.st ∧ (State.withdraw n s).bc = s.bc
      ∧ (State.withdraw n s).oh = s.oh ∧ (State.withdraw n s).epoch = s.epoch
      ∧ (State.withdraw n s).pending = s.pending := by
  unfold State.withdraw
  simp [*]

@[simp] theorem State.disablePort_frame (s : State) (p : Port) :
    (State.disablePort p s).paths = s.paths ∧ (State.disablePort p s).st = s.st ∧ (State.disablePort p s).bc = s.bc
      ∧ (State.disablePort p s).oh = s.oh ∧ (State.disablePort p s).epoch = s.epoch
      ∧ (State.disablePort p s).pending = s.pending := by
  unfold State.disablePort
  simp [*]

@[simp] theorem State.resetPort_frame (s : State) (p : Port) :
    (State.resetPort p s).paths = s.paths ∧ (State.resetPort p s).st = s.st ∧ (State.resetPort p s).bc = s.bc
      ∧ (State.resetPort p s).oh = s.oh ∧ (State.resetPort p s).epoch = s.epoch
      ∧ (State.resetPort p s).pending = s.pending := by
  unfold State.resetPort
  simp [*]

@[simp] theorem State.writeSettings_frame (s : State) (e : PortEdit) (ms : Nat) :
    (State.writeSettings e ms s).tb = s.tb ∧ (State.writeSettings e ms s).paths = s.paths
      ∧ (State.writeSettings e ms s).st = s.st ∧ (State.writeSettings e ms s).sq = s.sq
      ∧ (State.writeSettings e ms s).bc = s.bc ∧ (State.writeSettings e ms s).sg = s.sg
      ∧ (State.writeSettings e ms s).rl = s.rl ∧ (State.writeSettings e ms s).pc = s.pc
      ∧ (State.writeSettings e ms s).nq = s.nq ∧ (State.writeSettings e ms s).fri = s.fri
      ∧ (State.writeSettings e ms s).oh = s.oh ∧ (State.writeSettings e ms s).epoch = s.epoch
      ∧ (State.writeSettings e ms s).pending = s.pending := by
  unfold State.writeSettings
  (repeat' split) <;> simp [*]

@[simp] theorem State.remeasureHold_frame (s : State) (p : Port) (x : Option Nat) (ms : Nat) :
    (State.remeasureHold p x ms s).paths = s.paths ∧ (State.remeasureHold p x ms s).st = s.st
      ∧ (State.remeasureHold p x ms s).bc = s.bc ∧ (State.remeasureHold p x ms s).oh = s.oh
      ∧ (State.remeasureHold p x ms s).epoch = s.epoch ∧ (State.remeasureHold p x ms s).pending = s.pending := by
  unfold State.remeasureHold
  (repeat' split) <;> simp

@[simp] theorem State.nameMode_frame (s : State) (p : Port) (m : Option PanelMode) :
    (State.nameMode p m s).paths = s.paths ∧ (State.nameMode p m s).st = s.st ∧ (State.nameMode p m s).oh = s.oh
      ∧ (State.nameMode p m s).epoch = s.epoch ∧ (State.nameMode p m s).pending = s.pending := by
  unfold State.nameMode
  (repeat' split) <;> simp [*]

@[simp] theorem State.setSettings_frame (s : State) (e : PortEdit) (m n : Nat) :
    (State.setSettings e m n s).paths = s.paths ∧ (State.setSettings e m n s).st = s.st
      ∧ (State.setSettings e m n s).oh = s.oh ∧ (State.setSettings e m n s).epoch = s.epoch
      ∧ (State.setSettings e m n s).pending = s.pending := by
  unfold State.setSettings
  simp [*]

@[simp] theorem State.afterPicture_frame (s : State) (p : Port) :
    (State.afterPicture p s).paths = s.paths ∧ (State.afterPicture p s).st = s.st ∧ (State.afterPicture p s).bc = s.bc
      ∧ (State.afterPicture p s).oh = s.oh ∧ (State.afterPicture p s).epoch = s.epoch
      ∧ (State.afterPicture p s).pending = s.pending := by
  unfold State.afterPicture
  dsimp only
  (repeat' split) <;> simp

@[simp] theorem State.takeStrip_frame (s : State) (p : Port) (i : Nat) :
    (State.takeStrip p i s).tb = s.tb ∧ (State.takeStrip p i s).paths = s.paths ∧ (State.takeStrip p i s).st = s.st
      ∧ (State.takeStrip p i s).sq = s.sq ∧ (State.takeStrip p i s).sg = s.sg ∧ (State.takeStrip p i s).rl = s.rl
      ∧ (State.takeStrip p i s).pc = s.pc ∧ (State.takeStrip p i s).nq = s.nq ∧ (State.takeStrip p i s).fri = s.fri
      ∧ (State.takeStrip p i s).oh = s.oh ∧ (State.takeStrip p i s).epoch = s.epoch
      ∧ (State.takeStrip p i s).pending = s.pending := by
  unfold State.takeStrip
  simp [*]

@[simp] theorem State.takeKeepAlive_frame (s : State) (p : Port) :
    (State.takeKeepAlive p s).tb = s.tb ∧ (State.takeKeepAlive p s).paths = s.paths
      ∧ (State.takeKeepAlive p s).st = s.st ∧ (State.takeKeepAlive p s).sq = s.sq
      ∧ (State.takeKeepAlive p s).bc = s.bc ∧ (State.takeKeepAlive p s).sg = s.sg
      ∧ (State.takeKeepAlive p s).rl = s.rl ∧ (State.takeKeepAlive p s).pc = s.pc
      ∧ (State.takeKeepAlive p s).nq = s.nq ∧ (State.takeKeepAlive p s).fri = s.fri
      ∧ (State.takeKeepAlive p s).oh = s.oh ∧ (State.takeKeepAlive p s).epoch = s.epoch
      ∧ (State.takeKeepAlive p s).pending = s.pending := by
  unfold State.takeKeepAlive
  (repeat' split) <;> simp [*]

@[simp] theorem State.startLink_frame (s : State) (p : Port) :
    (State.startLink p s).paths = s.paths ∧ (State.startLink p s).st = s.st ∧ (State.startLink p s).oh = s.oh
      ∧ (State.startLink p s).epoch = s.epoch ∧ (State.startLink p s).pending = s.pending := by
  unfold State.startLink
  dsimp only
  (repeat' split) <;> simp

@[simp] theorem State.cellStart_frame (s : State) (p : Port) (us : Nat) :
    (State.cellStart p us s).paths = s.paths ∧ (State.cellStart p us s).st = s.st ∧ (State.cellStart p us s).oh = s.oh
      ∧ (State.cellStart p us s).epoch = s.epoch ∧ (State.cellStart p us s).pending = s.pending := by
  unfold State.cellStart
  (repeat' split) <;> simp

@[simp] theorem State.cellSent_frame (s : State) (p : Port) :
    (State.cellSent p s).paths = s.paths ∧ (State.cellSent p s).st = s.st ∧ (State.cellSent p s).bc = s.bc
      ∧ (State.cellSent p s).oh = s.oh ∧ (State.cellSent p s).epoch = s.epoch
      ∧ (State.cellSent p s).pending = s.pending := by
  unfold State.cellSent
  (repeat' split) <;> simp [*]

@[simp] theorem State.holdAsserted_frame (s : State) (p : Port) :
    (State.holdAsserted p s).paths = s.paths ∧ (State.holdAsserted p s).st = s.st ∧ (State.holdAsserted p s).bc = s.bc
      ∧ (State.holdAsserted p s).oh = s.oh ∧ (State.holdAsserted p s).epoch = s.epoch
      ∧ (State.holdAsserted p s).pending = s.pending := by
  unfold State.holdAsserted
  simp [*]

@[simp] theorem State.slip_frame (s : State) (p : Port) :
    (State.slip p s).paths = s.paths ∧ (State.slip p s).st = s.st ∧ (State.slip p s).bc = s.bc
      ∧ (State.slip p s).oh = s.oh ∧ (State.slip p s).epoch = s.epoch ∧ (State.slip p s).pending = s.pending := by
  unfold State.slip
  (repeat' split) <;> simp [*]

@[simp] theorem State.holdReleased_frame (s : State) (p : Port) :
    (State.holdReleased p s).paths = s.paths ∧ (State.holdReleased p s).st = s.st ∧ (State.holdReleased p s).bc = s.bc
      ∧ (State.holdReleased p s).oh = s.oh ∧ (State.holdReleased p s).epoch = s.epoch
      ∧ (State.holdReleased p s).pending = s.pending := by
  unfold State.holdReleased
  simp [*]

@[simp] theorem State.holdTimeout_frame (s : State) (p : Port) (ms : Nat) :
    (State.holdTimeout p ms s).paths = s.paths ∧ (State.holdTimeout p ms s).st = s.st
      ∧ (State.holdTimeout p ms s).bc = s.bc ∧ (State.holdTimeout p ms s).oh = s.oh
      ∧ (State.holdTimeout p ms s).epoch = s.epoch ∧ (State.holdTimeout p ms s).pending = s.pending := by
  unfold State.holdTimeout
  (repeat' split) <;> simp [*]

@[simp] theorem State.linkTimeout_frame (s : State) (p : Port) (ms : Nat) :
    (State.linkTimeout p ms s).paths = s.paths ∧ (State.linkTimeout p ms s).st = s.st
      ∧ (State.linkTimeout p ms s).bc = s.bc ∧ (State.linkTimeout p ms s).oh = s.oh
      ∧ (State.linkTimeout p ms s).epoch = s.epoch ∧ (State.linkTimeout p ms s).pending = s.pending := by
  unfold State.linkTimeout
  (repeat' split) <;> simp [*]

@[simp] theorem State.retryTimeout_frame (s : State) (p : Port) (ms : Nat) :
    (State.retryTimeout p ms s).paths = s.paths ∧ (State.retryTimeout p ms s).st = s.st
      ∧ (State.retryTimeout p ms s).bc = s.bc ∧ (State.retryTimeout p ms s).oh = s.oh
      ∧ (State.retryTimeout p ms s).epoch = s.epoch ∧ (State.retryTimeout p ms s).pending = s.pending := by
  unfold State.retryTimeout
  (repeat' split) <;> simp [*]

@[simp] theorem State.keepAliveTimeout_frame (s : State) (p : Port) (ms : Nat) :
    (State.keepAliveTimeout p ms s).tb = s.tb ∧ (State.keepAliveTimeout p ms s).paths = s.paths
      ∧ (State.keepAliveTimeout p ms s).st = s.st ∧ (State.keepAliveTimeout p ms s).sq = s.sq
      ∧ (State.keepAliveTimeout p ms s).bc = s.bc ∧ (State.keepAliveTimeout p ms s).sg = s.sg
      ∧ (State.keepAliveTimeout p ms s).rl = s.rl ∧ (State.keepAliveTimeout p ms s).pc = s.pc
      ∧ (State.keepAliveTimeout p ms s).nq = s.nq ∧ (State.keepAliveTimeout p ms s).fri = s.fri
      ∧ (State.keepAliveTimeout p ms s).oh = s.oh ∧ (State.keepAliveTimeout p ms s).epoch = s.epoch
      ∧ (State.keepAliveTimeout p ms s).pending = s.pending := by
  unfold State.keepAliveTimeout
  (repeat' split) <;> simp [*]

@[simp] theorem State.fillSlot_frame (s : State)  :
    (s.fillSlot).tb = s.tb ∧ (s.fillSlot).paths = s.paths ∧ (s.fillSlot).st = s.st ∧ (s.fillSlot).sq = s.sq
      ∧ (s.fillSlot).bc = s.bc ∧ (s.fillSlot).sg = s.sg ∧ (s.fillSlot).rl = s.rl ∧ (s.fillSlot).pc = s.pc
      ∧ (s.fillSlot).nq = s.nq ∧ (s.fillSlot).pp = s.pp ∧ (s.fillSlot).oh = s.oh ∧ (s.fillSlot).epoch = s.epoch
      ∧ (s.fillSlot).pending = s.pending := by
  unfold State.fillSlot
  (repeat' split) <;> simp [*]

/-- All that a LIVE cell does at its port. -/
theorem State.copyLive_port (s : State) (b : List Byte) (p q : Port) :
    (State.copyLive b p s).port q =
      if p = q then
        if Config.livePlaces ≤ (s.port p).live.length then (s.port p).dropped
        else if s.pictureOpen p then (s.port p).copied b
        else if s.resetTaken .panelPorts then s.meetResetPort b p
        else (s.port p).dropped
      else s.port q := by
  unfold State.copyLive
  by_cases h : p = q
  · subst h
    simp
  · simp [h, State.port_setPort_other]

@[simp] theorem State.copyLive_frame (s : State) (b : List Byte) (p : Port) :
    (State.copyLive b p s).tb = s.tb ∧ (State.copyLive b p s).paths = s.paths ∧ (State.copyLive b p s).st = s.st
      ∧ (State.copyLive b p s).sq = s.sq ∧ (State.copyLive b p s).bc = s.bc ∧ (State.copyLive b p s).sg = s.sg
      ∧ (State.copyLive b p s).rl = s.rl ∧ (State.copyLive b p s).pc = s.pc ∧ (State.copyLive b p s).nq = s.nq
      ∧ (State.copyLive b p s).fri = s.fri ∧ (State.copyLive b p s).oh = s.oh ∧ (State.copyLive b p s).epoch = s.epoch
      ∧ (State.copyLive b p s).pending = s.pending := by
  unfold State.copyLive
  (repeat' split) <;> simp [*]

@[simp] theorem State.routeLive_frame (s : State) (c : List Byte) :
    (State.routeLive c s).tb = s.tb ∧ (State.routeLive c s).paths = s.paths ∧ (State.routeLive c s).st = s.st
      ∧ (State.routeLive c s).sq = s.sq ∧ (State.routeLive c s).bc = s.bc ∧ (State.routeLive c s).sg = s.sg
      ∧ (State.routeLive c s).rl = s.rl ∧ (State.routeLive c s).pc = s.pc ∧ (State.routeLive c s).nq = s.nq
      ∧ (State.routeLive c s).fri = s.fri ∧ (State.routeLive c s).oh = s.oh ∧ (State.routeLive c s).epoch = s.epoch
      ∧ (State.routeLive c s).pending = s.pending := by
  unfold State.routeLive
  (repeat' split) <;> simp [*]

@[simp] theorem State.resetLine_frame (s : State) (p : Port) :
    (State.resetLine p s).paths = s.paths ∧ (State.resetLine p s).st = s.st ∧ (State.resetLine p s).bc = s.bc
      ∧ (State.resetLine p s).oh = s.oh ∧ (State.resetLine p s).epoch = s.epoch
      ∧ (State.resetLine p s).pending = s.pending := by
  unfold State.resetLine
  (repeat' split) <;> simp [*]

@[simp] theorem State.claimRoll_frame (s : State)  :
    (s.claimRoll).paths = s.paths ∧ (s.claimRoll).st = s.st ∧ (s.claimRoll).bc = s.bc ∧ (s.claimRoll).rl = s.rl
      ∧ (s.claimRoll).oh = s.oh ∧ (s.claimRoll).epoch = s.epoch ∧ (s.claimRoll).pending = s.pending := by
  unfold State.claimRoll
  simp [*]

end Sys2Proof.Machine
end

