-- ==== Sys2Proof/Laws/Effects.lean ====
section
/-! SUPPORT. What each order, and each event of a port, of the feed and of time, leaves alone. -/
namespace Sys2Proof.Machine

@[simp] theorem State.contextTake_frame (s : State) (p : Port) (r : Run) :
    (State.contextTake p r s).2.paths = s.paths ∧ (State.contextTake p r s).2.st = s.st
      ∧ (State.contextTake p r s).2.bc = s.bc ∧ (State.contextTake p r s).2.oh = s.oh
      ∧ (State.contextTake p r s).2.epoch = s.epoch ∧ (State.contextTake p r s).2.pending = s.pending := by
  unfold State.contextTake
  (repeat' split) <;> simp

@[simp] theorem State.liveTake_frame (s : State) (p : Port) (c : List Byte) (l : List (List Byte)) :
    (State.liveTake p c l s).2.tb = s.tb ∧ (State.liveTake p c l s).2.paths = s.paths
      ∧ (State.liveTake p c l s).2.st = s.st ∧ (State.liveTake p c l s).2.sq = s.sq
      ∧ (State.liveTake p c l s).2.bc = s.bc ∧ (State.liveTake p c l s).2.sg = s.sg
      ∧ (State.liveTake p c l s).2.rl = s.rl ∧ (State.liveTake p c l s).2.pc = s.pc
      ∧ (State.liveTake p c l s).2.nq = s.nq ∧ (State.liveTake p c l s).2.fri = s.fri
      ∧ (State.liveTake p c l s).2.oh = s.oh ∧ (State.liveTake p c l s).2.epoch = s.epoch
      ∧ (State.liveTake p c l s).2.pending = s.pending := by
  unfold State.liveTake
  (repeat' split) <;> simp

@[simp] theorem State.streamTake_frame (s : State) (p : Port) (x : Source) :
    (State.streamTake p x s).2.paths = s.paths ∧ (State.streamTake p x s).2.st = s.st
      ∧ (State.streamTake p x s).2.bc = s.bc ∧ (State.streamTake p x s).2.oh = s.oh
      ∧ (State.streamTake p x s).2.epoch = s.epoch ∧ (State.streamTake p x s).2.pending = s.pending := by
  unfold State.streamTake
  (repeat' split) <;> simp

@[simp] theorem State.takeStream_frame (s : State) (p : Port) (x : Source) :
    (State.takeStream p x s).paths = s.paths ∧ (State.takeStream p x s).st = s.st ∧ (State.takeStream p x s).bc = s.bc
      ∧ (State.takeStream p x s).oh = s.oh ∧ (State.takeStream p x s).epoch = s.epoch
      ∧ (State.takeStream p x s).pending = s.pending := by
  unfold State.takeStream
  simp

@[simp] theorem State.takePanel_frame (s : State) (p : Port) :
    (State.takePanel p s).paths = s.paths ∧ (State.takePanel p s).st = s.st ∧ (State.takePanel p s).oh = s.oh
      ∧ (State.takePanel p s).epoch = s.epoch ∧ (State.takePanel p s).pending = s.pending := by
  unfold State.takePanel
  (repeat' split) <;> simp

@[simp] theorem State.takeLit_frame (s : State) (p : Port) :
    (State.takeLit p s).paths = s.paths ∧ (State.takeLit p s).st = s.st ∧ (State.takeLit p s).oh = s.oh
      ∧ (State.takeLit p s).epoch = s.epoch ∧ (State.takeLit p s).pending = s.pending := by
  unfold State.takeLit
  (repeat' split) <;> simp

@[simp] theorem State.arbiterTake_frame (s : State) (p : Port) :
    (State.arbiterTake p s).paths = s.paths ∧ (State.arbiterTake p s).st = s.st ∧ (State.arbiterTake p s).oh = s.oh
      ∧ (State.arbiterTake p s).epoch = s.epoch ∧ (State.arbiterTake p s).pending = s.pending := by
  unfold State.arbiterTake
  (repeat' split) <;> simp

@[simp] theorem State.meetOwn_frame (s : State) (c : List Byte) :
    (State.meetOwn c s).tb = s.tb ∧ (State.meetOwn c s).paths = s.paths ∧ (State.meetOwn c s).st = s.st
      ∧ (State.meetOwn c s).sq = s.sq ∧ (State.meetOwn c s).bc = s.bc ∧ (State.meetOwn c s).sg = s.sg
      ∧ (State.meetOwn c s).rl = s.rl ∧ (State.meetOwn c s).pc = s.pc ∧ (State.meetOwn c s).nq = s.nq
      ∧ (State.meetOwn c s).oh = s.oh ∧ (State.meetOwn c s).epoch = s.epoch ∧ (State.meetOwn c s).pending = s.pending := by
  unfold State.meetOwn
  (repeat' split) <;> simp

@[simp] theorem State.meetAll_frame (s : State) (c : List Byte) :
    (State.meetAll c s).tb = s.tb ∧ (State.meetAll c s).paths = s.paths ∧ (State.meetAll c s).st = s.st
      ∧ (State.meetAll c s).sq = s.sq ∧ (State.meetAll c s).bc = s.bc ∧ (State.meetAll c s).sg = s.sg
      ∧ (State.meetAll c s).rl = s.rl ∧ (State.meetAll c s).pc = s.pc ∧ (State.meetAll c s).nq = s.nq
      ∧ (State.meetAll c s).oh = s.oh ∧ (State.meetAll c s).epoch = s.epoch ∧ (State.meetAll c s).pending = s.pending := by
  unfold State.meetAll
  (repeat' split) <;> simp

@[simp] theorem State.meetCell_frame (s : State) (c : List Byte) :
    (State.meetCell c s).tb = s.tb ∧ (State.meetCell c s).paths = s.paths ∧ (State.meetCell c s).st = s.st
      ∧ (State.meetCell c s).sq = s.sq ∧ (State.meetCell c s).bc = s.bc ∧ (State.meetCell c s).sg = s.sg
      ∧ (State.meetCell c s).rl = s.rl ∧ (State.meetCell c s).pc = s.pc ∧ (State.meetCell c s).nq = s.nq
      ∧ (State.meetCell c s).oh = s.oh ∧ (State.meetCell c s).epoch = s.epoch
      ∧ (State.meetCell c s).pending = s.pending := by
  unfold State.meetCell
  (repeat' split) <;> simp

@[simp] theorem State.handleCell_frame (s : State) (c : List Byte) :
    (State.handleCell c s).tb = s.tb ∧ (State.handleCell c s).paths = s.paths ∧ (State.handleCell c s).st = s.st
      ∧ (State.handleCell c s).sq = s.sq ∧ (State.handleCell c s).bc = s.bc ∧ (State.handleCell c s).sg = s.sg
      ∧ (State.handleCell c s).rl = s.rl ∧ (State.handleCell c s).pc = s.pc ∧ (State.handleCell c s).nq = s.nq
      ∧ (State.handleCell c s).oh = s.oh ∧ (State.handleCell c s).epoch = s.epoch
      ∧ (State.handleCell c s).pending = s.pending := by
  unfold State.handleCell
  (repeat' split) <;> simp

@[simp] theorem State.claimRestored_frame (s : State) (x : Option Nat) :
    (State.claimRestored x s).paths = s.paths ∧ (State.claimRestored x s).st = s.st
      ∧ (State.claimRestored x s).bc = s.bc ∧ (State.claimRestored x s).rl = s.rl
      ∧ (State.claimRestored x s).oh = s.oh ∧ (State.claimRestored x s).epoch = s.epoch
      ∧ (State.claimRestored x s).pending = s.pending := by
  unfold State.claimRestored
  (repeat' split) <;> simp

@[simp] theorem State.restoreFeed_frame (s : State) (c : List Byte) (b : Bool) :
    (State.restoreFeed c b s).paths = s.paths ∧ (State.restoreFeed c b s).st = s.st
      ∧ (State.restoreFeed c b s).bc = s.bc ∧ (State.restoreFeed c b s).rl = s.rl
      ∧ (State.restoreFeed c b s).oh = s.oh ∧ (State.restoreFeed c b s).epoch = s.epoch
      ∧ (State.restoreFeed c b s).pending = s.pending := by
  unfold State.restoreFeed
  (repeat' split) <;> simp

@[simp] theorem State.discardCell_frame (s : State) :
    s.discardCell.tb = s.tb ∧ s.discardCell.paths = s.paths ∧ s.discardCell.st = s.st ∧ s.discardCell.sq = s.sq
      ∧ s.discardCell.bc = s.bc ∧ s.discardCell.sg = s.sg ∧ s.discardCell.rl = s.rl ∧ s.discardCell.pc = s.pc
      ∧ s.discardCell.nq = s.nq ∧ s.discardCell.pp = s.pp ∧ s.discardCell.oh = s.oh ∧ s.discardCell.epoch = s.epoch
      ∧ s.discardCell.pending = s.pending := by
  unfold State.discardCell
  (repeat' split) <;> simp

@[simp] theorem State.arrive_frame (s : State) (c : List Byte) (b : Bool) :
    (State.arrive c b s).paths = s.paths ∧ (State.arrive c b s).st = s.st ∧ (State.arrive c b s).bc = s.bc
      ∧ (State.arrive c b s).rl = s.rl ∧ (State.arrive c b s).oh = s.oh ∧ (State.arrive c b s).epoch = s.epoch
      ∧ (State.arrive c b s).pending = s.pending := by
  unfold State.arrive
  (repeat' split) <;> simp

@[simp] theorem State.feedLoss_frame (s : State) (ms : Nat) :
    (State.feedLoss ms s).tb = s.tb ∧ (State.feedLoss ms s).paths = s.paths ∧ (State.feedLoss ms s).st = s.st
      ∧ (State.feedLoss ms s).sq = s.sq ∧ (State.feedLoss ms s).bc = s.bc ∧ (State.feedLoss ms s).sg = s.sg
      ∧ (State.feedLoss ms s).rl = s.rl ∧ (State.feedLoss ms s).pc = s.pc ∧ (State.feedLoss ms s).nq = s.nq
      ∧ (State.feedLoss ms s).pp = s.pp ∧ (State.feedLoss ms s).oh = s.oh ∧ (State.feedLoss ms s).epoch = s.epoch
      ∧ (State.feedLoss ms s).pending = s.pending := by
  unfold State.feedLoss
  (repeat' split) <;> simp

@[simp] theorem State.ownSlot_frame (s : State) :
    s.ownSlot.tb = s.tb ∧ s.ownSlot.paths = s.paths ∧ s.ownSlot.st = s.st ∧ s.ownSlot.sq = s.sq ∧ s.ownSlot.bc = s.bc
      ∧ s.ownSlot.sg = s.sg ∧ s.ownSlot.rl = s.rl ∧ s.ownSlot.pc = s.pc ∧ s.ownSlot.nq = s.nq ∧ s.ownSlot.pp = s.pp
      ∧ s.ownSlot.oh = s.oh ∧ s.ownSlot.epoch = s.epoch ∧ s.ownSlot.pending = s.pending := by
  unfold State.ownSlot
  (repeat' split) <;> simp

@[simp] theorem State.loadStep_frame (s : State) :
    s.loadStep.tb = s.tb ∧ s.loadStep.paths = s.paths ∧ s.loadStep.st = s.st ∧ s.loadStep.sq = s.sq
      ∧ s.loadStep.bc = s.bc ∧ s.loadStep.rl = s.rl ∧ s.loadStep.pc = s.pc ∧ s.loadStep.nq = s.nq
      ∧ s.loadStep.pp = s.pp ∧ s.loadStep.oh = s.oh ∧ s.loadStep.epoch = s.epoch ∧ s.loadStep.pending = s.pending := by
  unfold State.loadStep
  (repeat' split) <;> simp

@[simp] theorem State.unknownOrder_frame (s : State) :
    s.unknownOrder.tb = s.tb ∧ s.unknownOrder.paths = s.paths ∧ s.unknownOrder.st = s.st ∧ s.unknownOrder.sq = s.sq
      ∧ s.unknownOrder.bc = s.bc ∧ s.unknownOrder.sg = s.sg ∧ s.unknownOrder.rl = s.rl ∧ s.unknownOrder.pc = s.pc
      ∧ s.unknownOrder.nq = s.nq ∧ s.unknownOrder.pp = s.pp ∧ s.unknownOrder.oh = s.oh
      ∧ s.unknownOrder.epoch = s.epoch ∧ s.unknownOrder.pending = s.pending := by
  unfold State.unknownOrder
  (repeat' split) <;> simp

@[simp] theorem State.unitReset_frame (s : State) :
    s.unitReset.tb = s.tb ∧ s.unitReset.paths = s.paths ∧ s.unitReset.st = s.st ∧ s.unitReset.sq = s.sq
      ∧ s.unitReset.bc = s.bc ∧ s.unitReset.sg = s.sg ∧ s.unitReset.rl = s.rl ∧ s.unitReset.pc = s.pc
      ∧ s.unitReset.nq = s.nq ∧ s.unitReset.pp = s.pp ∧ s.unitReset.epoch = s.epoch ∧ s.unitReset.pending = s.pending := by
  unfold State.unitReset
  (repeat' split) <;> simp [State.beginReset]

@[simp] theorem State.runSecond_frame (s : State) :
    s.runSecond.st = s.st ∧ s.runSecond.sq = s.sq ∧ s.runSecond.bc = s.bc ∧ s.runSecond.sg = s.sg
      ∧ s.runSecond.rl = s.rl ∧ s.runSecond.pc = s.pc ∧ s.runSecond.nq = s.nq ∧ s.runSecond.pp = s.pp
      ∧ s.runSecond.fri = s.fri ∧ s.runSecond.oh = s.oh ∧ s.runSecond.epoch = s.epoch
      ∧ s.runSecond.pending = s.pending := by
  unfold State.runSecond
  (repeat' split) <;> simp

@[simp] theorem State.holdExpiry_frame (s : State) :
    s.holdExpiry.rl = s.rl ∧ s.holdExpiry.oh = s.oh ∧ s.holdExpiry.epoch = s.epoch ∧ s.holdExpiry.pending = s.pending := by
  unfold State.holdExpiry
  (repeat' split) <;> simp

@[simp] theorem State.clockSecond_frame (s : State) :
    s.clockSecond.st = s.st ∧ s.clockSecond.bc = s.bc ∧ s.clockSecond.rl = s.rl ∧ s.clockSecond.oh = s.oh
      ∧ s.clockSecond.epoch = s.epoch ∧ s.clockSecond.pending = s.pending := by
  unfold State.clockSecond
  (repeat' split) <;> simp

@[simp] theorem State.minuteEvent_frame (s : State) :
    s.minuteEvent.tb = s.tb ∧ s.minuteEvent.sq = s.sq ∧ s.minuteEvent.sg = s.sg ∧ s.minuteEvent.rl = s.rl
      ∧ s.minuteEvent.pc = s.pc ∧ s.minuteEvent.nq = s.nq ∧ s.minuteEvent.pp = s.pp ∧ s.minuteEvent.fri = s.fri
      ∧ s.minuteEvent.oh = s.oh ∧ s.minuteEvent.epoch = s.epoch ∧ s.minuteEvent.pending = s.pending := by
  unfold State.minuteEvent
  (repeat' split) <;> simp

@[simp] theorem State.boardMinuteEvent_frame (s : State) :
    s.boardMinuteEvent.tb = s.tb ∧ s.boardMinuteEvent.st = s.st ∧ s.boardMinuteEvent.sq = s.sq
      ∧ s.boardMinuteEvent.sg = s.sg ∧ s.boardMinuteEvent.rl = s.rl ∧ s.boardMinuteEvent.pc = s.pc
      ∧ s.boardMinuteEvent.nq = s.nq ∧ s.boardMinuteEvent.pp = s.pp ∧ s.boardMinuteEvent.fri = s.fri
      ∧ s.boardMinuteEvent.oh = s.oh ∧ s.boardMinuteEvent.epoch = s.epoch ∧ s.boardMinuteEvent.pending = s.pending := by
  unfold State.boardMinuteEvent
  (repeat' split) <;> simp

@[simp] theorem State.endNotice_frame (s : State) :
    s.endNotice.rl = s.rl ∧ s.endNotice.oh = s.oh ∧ s.endNotice.epoch = s.epoch ∧ s.endNotice.pending = s.pending := by
  unfold State.endNotice
  (repeat' split) <;> simp

@[simp] theorem State.noticeExpiry_frame (s : State) :
    s.noticeExpiry.st = s.st ∧ s.noticeExpiry.bc = s.bc ∧ s.noticeExpiry.oh = s.oh ∧ s.noticeExpiry.epoch = s.epoch
      ∧ s.noticeExpiry.pending = s.pending := by
  unfold State.noticeExpiry
  split
  · simp
  · exact ⟨foldl_keeps (fun t : State => t.st) _ (by intros; simp) _ _, foldl_keeps (fun t : State => t.bc) _ (by intros; simp) _ _,
      foldl_keeps (fun t : State => t.oh) _ (by intros; simp) _ _, foldl_keeps (fun t : State => t.epoch) _ (by intros; simp) _ _,
      foldl_keeps (fun t : State => t.pending) _ (by intros; simp) _ _⟩

@[simp] theorem actClockSet_frame (s : State) (h : OrderHead) (a : Nat × Nat) :
    (actClockSet h a s).1.sq = s.sq ∧ (actClockSet h a s).1.sg = s.sg ∧ (actClockSet h a s).1.rl = s.rl
      ∧ (actClockSet h a s).1.pc = s.pc ∧ (actClockSet h a s).1.nq = s.nq ∧ (actClockSet h a s).1.pp = s.pp
      ∧ (actClockSet h a s).1.fri = s.fri ∧ (actClockSet h a s).1.oh = s.oh ∧ (actClockSet h a s).1.epoch = s.epoch
      ∧ (actClockSet h a s).1.pending = s.pending := by
  unfold actClockSet
  simp

@[simp] theorem actClockRead_frame (s : State) (h : OrderHead) (a : Unit) :
    (actClockRead h a s).1 = s := by
  unfold actClockRead
  rfl

@[simp] theorem actTitleLoad_frame (s : State) (h : OrderHead) (a : Nat × List Byte) :
    (actTitleLoad h a s).1.tb = s.tb ∧ (actTitleLoad h a s).1.paths = s.paths ∧ (actTitleLoad h a s).1.sq = s.sq
      ∧ (actTitleLoad h a s).1.sg = s.sg ∧ (actTitleLoad h a s).1.rl = s.rl ∧ (actTitleLoad h a s).1.pc = s.pc
      ∧ (actTitleLoad h a s).1.nq = s.nq ∧ (actTitleLoad h a s).1.pp = s.pp ∧ (actTitleLoad h a s).1.fri = s.fri
      ∧ (actTitleLoad h a s).1.oh = s.oh ∧ (actTitleLoad h a s).1.epoch = s.epoch
      ∧ (actTitleLoad h a s).1.pending = s.pending := by
  unfold actTitleLoad
  dsimp only
  (repeat' split) <;> simp

@[simp] theorem actTitleClear_frame (s : State) (h : OrderHead) (n : Nat) :
    (actTitleClear h n s).1.tb = s.tb ∧ (actTitleClear h n s).1.paths = s.paths ∧ (actTitleClear h n s).1.sq = s.sq
      ∧ (actTitleClear h n s).1.bc = s.bc ∧ (actTitleClear h n s).1.sg = s.sg ∧ (actTitleClear h n s).1.rl = s.rl
      ∧ (actTitleClear h n s).1.pc = s.pc ∧ (actTitleClear h n s).1.nq = s.nq ∧ (actTitleClear h n s).1.pp = s.pp
      ∧ (actTitleClear h n s).1.fri = s.fri ∧ (actTitleClear h n s).1.oh = s.oh
      ∧ (actTitleClear h n s).1.epoch = s.epoch ∧ (actTitleClear h n s).1.pending = s.pending := by
  unfold actTitleClear
  (repeat' split) <;> simp

@[simp] theorem actShowLoad_frame (s : State) (h : OrderHead) (a : Nat × ShowFields) :
    (actShowLoad h a s).1.tb = s.tb ∧ (actShowLoad h a s).1.paths = s.paths ∧ (actShowLoad h a s).1.sq = s.sq
      ∧ (actShowLoad h a s).1.sg = s.sg ∧ (actShowLoad h a s).1.rl = s.rl ∧ (actShowLoad h a s).1.pc = s.pc
      ∧ (actShowLoad h a s).1.nq = s.nq ∧ (actShowLoad h a s).1.pp = s.pp ∧ (actShowLoad h a s).1.fri = s.fri
      ∧ (actShowLoad h a s).1.oh = s.oh ∧ (actShowLoad h a s).1.epoch = s.epoch
      ∧ (actShowLoad h a s).1.pending = s.pending := by
  unfold actShowLoad
  (repeat' split) <;> simp

@[simp] theorem actShowPublish_frame (s : State) (h : OrderHead) (n : Nat) :
    (actShowPublish h n s).1.tb = s.tb ∧ (actShowPublish h n s).1.sq = s.sq ∧ (actShowPublish h n s).1.sg = s.sg
      ∧ (actShowPublish h n s).1.rl = s.rl ∧ (actShowPublish h n s).1.pc = s.pc ∧ (actShowPublish h n s).1.nq = s.nq
      ∧ (actShowPublish h n s).1.pp = s.pp ∧ (actShowPublish h n s).1.fri = s.fri ∧ (actShowPublish h n s).1.oh = s.oh
      ∧ (actShowPublish h n s).1.epoch = s.epoch ∧ (actShowPublish h n s).1.pending = s.pending := by
  unfold actShowPublish
  (repeat' split) <;> simp

@[simp] theorem actShowEdit_frame (s : State) (h : OrderHead) (e : ShowEdit) :
    (actShowEdit h e s).1.tb = s.tb ∧ (actShowEdit h e s).1.sq = s.sq ∧ (actShowEdit h e s).1.sg = s.sg
      ∧ (actShowEdit h e s).1.rl = s.rl ∧ (actShowEdit h e s).1.pc = s.pc ∧ (actShowEdit h e s).1.nq = s.nq
      ∧ (actShowEdit h e s).1.pp = s.pp ∧ (actShowEdit h e s).1.fri = s.fri ∧ (actShowEdit h e s).1.oh = s.oh
      ∧ (actShowEdit h e s).1.epoch = s.epoch ∧ (actShowEdit h e s).1.pending = s.pending := by
  unfold actShowEdit
  (repeat' split) <;> simp

@[simp] theorem actShowDelay_frame (s : State) (h : OrderHead) (a : Nat × Nat) :
    (actShowDelay h a s).1.tb = s.tb ∧ (actShowDelay h a s).1.sq = s.sq ∧ (actShowDelay h a s).1.sg = s.sg
      ∧ (actShowDelay h a s).1.rl = s.rl ∧ (actShowDelay h a s).1.pc = s.pc ∧ (actShowDelay h a s).1.nq = s.nq
      ∧ (actShowDelay h a s).1.pp = s.pp ∧ (actShowDelay h a s).1.fri = s.fri ∧ (actShowDelay h a s).1.oh = s.oh
      ∧ (actShowDelay h a s).1.epoch = s.epoch ∧ (actShowDelay h a s).1.pending = s.pending := by
  unfold actShowDelay
  (repeat' split) <;> simp

@[simp] theorem actShowCancel_frame (s : State) (h : OrderHead) (n : Nat) :
    (actShowCancel h n s).1.paths = s.paths ∧ (actShowCancel h n s).1.rl = s.rl ∧ (actShowCancel h n s).1.oh = s.oh
      ∧ (actShowCancel h n s).1.epoch = s.epoch ∧ (actShowCancel h n s).1.pending = s.pending := by
  unfold actShowCancel
  (repeat' split) <;> simp

@[simp] theorem dropShow_frame (s : State) (n : Nat) :
    (dropShow n s).1.tb = s.tb ∧ (dropShow n s).1.paths = s.paths ∧ (dropShow n s).1.sq = s.sq
      ∧ (dropShow n s).1.sg = s.sg ∧ (dropShow n s).1.rl = s.rl ∧ (dropShow n s).1.pc = s.pc
      ∧ (dropShow n s).1.nq = s.nq ∧ (dropShow n s).1.pp = s.pp ∧ (dropShow n s).1.fri = s.fri
      ∧ (dropShow n s).1.oh = s.oh ∧ (dropShow n s).1.epoch = s.epoch ∧ (dropShow n s).1.pending = s.pending := by
  unfold dropShow
  (repeat' split) <;> simp

@[simp] theorem actShowDrop_frame (s : State) (h : OrderHead) (n : Nat) :
    (actShowDrop h n s).1.rl = s.rl ∧ (actShowDrop h n s).1.oh = s.oh ∧ (actShowDrop h n s).1.epoch = s.epoch
      ∧ (actShowDrop h n s).1.pending = s.pending :=
  State.afterNotice_frame s _ _ fun t => by simp

@[simp] theorem readShow_frame (s : State) (n : Nat) :
    (readShow n s).1 = s := by
  unfold readShow
  (repeat' split) <;> rfl

@[simp] theorem actShowRead_frame (s : State) (h : OrderHead) (n : Nat) :
    (actShowRead h n s).1.rl = s.rl ∧ (actShowRead h n s).1.oh = s.oh ∧ (actShowRead h n s).1.epoch = s.epoch
      ∧ (actShowRead h n s).1.pending = s.pending :=
  State.afterNotice_frame s _ _ fun t => by simp

@[simp] theorem seatHold_frame (s : State) (o : HoldOrder) :
    (seatHold o s).1.tb = s.tb ∧ (seatHold o s).1.paths = s.paths ∧ (seatHold o s).1.sg = s.sg
      ∧ (seatHold o s).1.rl = s.rl ∧ (seatHold o s).1.pc = s.pc ∧ (seatHold o s).1.nq = s.nq
      ∧ (seatHold o s).1.pp = s.pp ∧ (seatHold o s).1.fri = s.fri ∧ (seatHold o s).1.oh = s.oh
      ∧ (seatHold o s).1.epoch = s.epoch ∧ (seatHold o s).1.pending = s.pending := by
  unfold seatHold
  (repeat' split) <;> simp

@[simp] theorem actSeatHold_frame (s : State) (h : OrderHead) (o : HoldOrder) :
    (actSeatHold h o s).1.rl = s.rl ∧ (actSeatHold h o s).1.oh = s.oh ∧ (actSeatHold h o s).1.epoch = s.epoch
      ∧ (actSeatHold h o s).1.pending = s.pending :=
  State.afterNotice_frame s _ _ fun t => by simp

@[simp] theorem collectLapse_frame (s : State) (x : Hold) :
    (collectLapse x s).1.tb = s.tb ∧ (collectLapse x s).1.paths = s.paths ∧ (collectLapse x s).1.st = s.st
      ∧ (collectLapse x s).1.bc = s.bc ∧ (collectLapse x s).1.sg = s.sg ∧ (collectLapse x s).1.rl = s.rl
      ∧ (collectLapse x s).1.pc = s.pc ∧ (collectLapse x s).1.nq = s.nq ∧ (collectLapse x s).1.pp = s.pp
      ∧ (collectLapse x s).1.fri = s.fri ∧ (collectLapse x s).1.oh = s.oh ∧ (collectLapse x s).1.epoch = s.epoch
      ∧ (collectLapse x s).1.pending = s.pending := by
  unfold collectLapse
  simp

@[simp] theorem seatConfirm_frame (s : State) (k : DeskTag) :
    (seatConfirm k s).1.tb = s.tb ∧ (seatConfirm k s).1.paths = s.paths ∧ (seatConfirm k s).1.bc = s.bc
      ∧ (seatConfirm k s).1.sg = s.sg ∧ (seatConfirm k s).1.rl = s.rl ∧ (seatConfirm k s).1.pc = s.pc
      ∧ (seatConfirm k s).1.nq = s.nq ∧ (seatConfirm k s).1.pp = s.pp ∧ (seatConfirm k s).1.fri = s.fri
      ∧ (seatConfirm k s).1.oh = s.oh ∧ (seatConfirm k s).1.epoch = s.epoch ∧ (seatConfirm k s).1.pending = s.pending := by
  unfold seatConfirm
  (repeat' split) <;> simp

@[simp] theorem actSeatConfirm_frame (s : State) (h : OrderHead) (k : DeskTag) :
    (actSeatConfirm h k s).1.rl = s.rl ∧ (actSeatConfirm h k s).1.oh = s.oh ∧ (actSeatConfirm h k s).1.epoch = s.epoch
      ∧ (actSeatConfirm h k s).1.pending = s.pending :=
  State.afterKeyNotice_frame s _ _ fun t => by simp

@[simp] theorem seatRelease_frame (s : State) (k : DeskTag) :
    (seatRelease k s).1.tb = s.tb ∧ (seatRelease k s).1.paths = s.paths ∧ (seatRelease k s).1.sg = s.sg
      ∧ (seatRelease k s).1.rl = s.rl ∧ (seatRelease k s).1.pc = s.pc ∧ (seatRelease k s).1.nq = s.nq
      ∧ (seatRelease k s).1.pp = s.pp ∧ (seatRelease k s).1.fri = s.fri ∧ (seatRelease k s).1.oh = s.oh
      ∧ (seatRelease k s).1.epoch = s.epoch ∧ (seatRelease k s).1.pending = s.pending := by
  unfold seatRelease
  (repeat' split) <;> simp

@[simp] theorem actSeatRelease_frame (s : State) (h : OrderHead) (k : DeskTag) :
    (actSeatRelease h k s).1.rl = s.rl ∧ (actSeatRelease h k s).1.oh = s.oh ∧ (actSeatRelease h k s).1.epoch = s.epoch
      ∧ (actSeatRelease h k s).1.pending = s.pending :=
  State.afterKeyNotice_frame s _ _ fun t => by simp

@[simp] theorem seatSell_frame (s : State) (n k : Nat) :
    (seatSell n k s).1.tb = s.tb ∧ (seatSell n k s).1.paths = s.paths ∧ (seatSell n k s).1.sq = s.sq
      ∧ (seatSell n k s).1.sg = s.sg ∧ (seatSell n k s).1.rl = s.rl ∧ (seatSell n k s).1.pc = s.pc
      ∧ (seatSell n k s).1.nq = s.nq ∧ (seatSell n k s).1.pp = s.pp ∧ (seatSell n k s).1.fri = s.fri
      ∧ (seatSell n k s).1.oh = s.oh ∧ (seatSell n k s).1.epoch = s.epoch ∧ (seatSell n k s).1.pending = s.pending := by
  unfold seatSell
  (repeat' split) <;> simp

@[simp] theorem actSeatSell_frame (s : State) (h : OrderHead) (a : Nat × Nat) :
    (actSeatSell h a s).1.rl = s.rl ∧ (actSeatSell h a s).1.oh = s.oh ∧ (actSeatSell h a s).1.epoch = s.epoch
      ∧ (actSeatSell h a s).1.pending = s.pending :=
  State.afterNotice_frame s _ _ fun t => by simp

@[simp] theorem seatRefund_frame (s : State) (n k : Nat) :
    (seatRefund n k s).1.tb = s.tb ∧ (seatRefund n k s).1.paths = s.paths ∧ (seatRefund n k s).1.sq = s.sq
      ∧ (seatRefund n k s).1.sg = s.sg ∧ (seatRefund n k s).1.rl = s.rl ∧ (seatRefund n k s).1.pc = s.pc
      ∧ (seatRefund n k s).1.nq = s.nq ∧ (seatRefund n k s).1.pp = s.pp ∧ (seatRefund n k s).1.fri = s.fri
      ∧ (seatRefund n k s).1.oh = s.oh ∧ (seatRefund n k s).1.epoch = s.epoch
      ∧ (seatRefund n k s).1.pending = s.pending := by
  unfold seatRefund
  (repeat' split) <;> simp

@[simp] theorem actSeatRefund_frame (s : State) (h : OrderHead) (a : Nat × Nat) :
    (actSeatRefund h a s).1.rl = s.rl ∧ (actSeatRefund h a s).1.oh = s.oh ∧ (actSeatRefund h a s).1.epoch = s.epoch
      ∧ (actSeatRefund h a s).1.pending = s.pending :=
  State.afterNotice_frame s _ _ fun t => by simp

@[simp] theorem tallyRead_frame (s : State) (n : Nat) :
    (tallyRead n s).1 = s := by
  unfold tallyRead
  (repeat' split) <;> rfl

@[simp] theorem actTallyRead_frame (s : State) (h : OrderHead) (n : Nat) :
    (actTallyRead h n s).1.rl = s.rl ∧ (actTallyRead h n s).1.oh = s.oh ∧ (actTallyRead h n s).1.epoch = s.epoch
      ∧ (actTallyRead h n s).1.pending = s.pending :=
  State.afterNotice_frame s _ _ fun t => by simp

@[simp] theorem holdRead_frame (s : State) (k : DeskTag) :
    (holdRead k s).1 = s := by
  unfold holdRead
  (repeat' split) <;> rfl

@[simp] theorem actHoldRead_frame (s : State) (h : OrderHead) (k : DeskTag) :
    (actHoldRead h k s).1.rl = s.rl ∧ (actHoldRead h k s).1.oh = s.oh ∧ (actHoldRead h k s).1.epoch = s.epoch
      ∧ (actHoldRead h k s).1.pending = s.pending :=
  State.afterKeyNotice_frame s _ _ fun t => by simp

@[simp] theorem actBoardSet_frame (s : State) (h : OrderHead) (o : BoardOrder) :
    (actBoardSet h o s).1.tb = s.tb ∧ (actBoardSet h o s).1.paths = s.paths ∧ (actBoardSet h o s).1.st = s.st
      ∧ (actBoardSet h o s).1.sq = s.sq ∧ (actBoardSet h o s).1.sg = s.sg ∧ (actBoardSet h o s).1.rl = s.rl
      ∧ (actBoardSet h o s).1.pc = s.pc ∧ (actBoardSet h o s).1.nq = s.nq ∧ (actBoardSet h o s).1.pp = s.pp
      ∧ (actBoardSet h o s).1.fri = s.fri ∧ (actBoardSet h o s).1.oh = s.oh ∧ (actBoardSet h o s).1.epoch = s.epoch
      ∧ (actBoardSet h o s).1.pending = s.pending := by
  unfold actBoardSet
  simp

@[simp] theorem actBoardRepaint_frame (s : State) (h : OrderHead) (p : Port) :
    (actBoardRepaint h p s).1.tb = s.tb ∧ (actBoardRepaint h p s).1.paths = s.paths
      ∧ (actBoardRepaint h p s).1.st = s.st ∧ (actBoardRepaint h p s).1.sq = s.sq
      ∧ (actBoardRepaint h p s).1.sg = s.sg ∧ (actBoardRepaint h p s).1.rl = s.rl
      ∧ (actBoardRepaint h p s).1.pc = s.pc ∧ (actBoardRepaint h p s).1.nq = s.nq
      ∧ (actBoardRepaint h p s).1.pp = s.pp ∧ (actBoardRepaint h p s).1.fri = s.fri
      ∧ (actBoardRepaint h p s).1.oh = s.oh ∧ (actBoardRepaint h p s).1.epoch = s.epoch
      ∧ (actBoardRepaint h p s).1.pending = s.pending := by
  unfold actBoardRepaint
  simp

@[simp] theorem actBoardRead_frame (s : State) (h : OrderHead) (p : Port) :
    (actBoardRead h p s).1 = s := by
  unfold actBoardRead
  rfl

@[simp] theorem actDefine_frame (s : State) (h : OrderHead) (o : DefineOrder) :
    (actDefine h o s).1.tb = s.tb ∧ (actDefine h o s).1.paths = s.paths ∧ (actDefine h o s).1.st = s.st
      ∧ (actDefine h o s).1.sq = s.sq ∧ (actDefine h o s).1.bc = s.bc ∧ (actDefine h o s).1.rl = s.rl
      ∧ (actDefine h o s).1.pc = s.pc ∧ (actDefine h o s).1.nq = s.nq ∧ (actDefine h o s).1.pp = s.pp
      ∧ (actDefine h o s).1.fri = s.fri ∧ (actDefine h o s).1.oh = s.oh ∧ (actDefine h o s).1.epoch = s.epoch
      ∧ (actDefine h o s).1.pending = s.pending := by
  unfold actDefine
  (repeat' split) <;> simp

@[simp] theorem actFinish_frame (s : State) (h : OrderHead) (n : Nat) :
    (actFinish h n s).1.tb = s.tb ∧ (actFinish h n s).1.paths = s.paths ∧ (actFinish h n s).1.st = s.st
      ∧ (actFinish h n s).1.sq = s.sq ∧ (actFinish h n s).1.bc = s.bc ∧ (actFinish h n s).1.rl = s.rl
      ∧ (actFinish h n s).1.pc = s.pc ∧ (actFinish h n s).1.nq = s.nq ∧ (actFinish h n s).1.pp = s.pp
      ∧ (actFinish h n s).1.fri = s.fri ∧ (actFinish h n s).1.oh = s.oh ∧ (actFinish h n s).1.epoch = s.epoch
      ∧ (actFinish h n s).1.pending = s.pending := by
  unfold actFinish
  (repeat' split) <;> simp

@[simp] theorem actRetire_frame (s : State) (h : OrderHead) (n : Nat) :
    (actRetire h n s).1.tb = s.tb ∧ (actRetire h n s).1.paths = s.paths ∧ (actRetire h n s).1.st = s.st
      ∧ (actRetire h n s).1.sq = s.sq ∧ (actRetire h n s).1.bc = s.bc ∧ (actRetire h n s).1.rl = s.rl
      ∧ (actRetire h n s).1.pc = s.pc ∧ (actRetire h n s).1.nq = s.nq ∧ (actRetire h n s).1.pp = s.pp
      ∧ (actRetire h n s).1.fri = s.fri ∧ (actRetire h n s).1.oh = s.oh ∧ (actRetire h n s).1.epoch = s.epoch
      ∧ (actRetire h n s).1.pending = s.pending := by
  unfold actRetire
  (repeat' split) <;> simp

@[simp] theorem actSegmentRead_frame (s : State) (h : OrderHead) (n : Nat) :
    (actSegmentRead h n s).1 = s := by
  unfold actSegmentRead
  (repeat' split) <;> rfl

@[simp] theorem actReelWrite_frame (s : State) (h : OrderHead) (o : ReelOrder) :
    (actReelWrite h o s).1.tb = s.tb ∧ (actReelWrite h o s).1.paths = s.paths ∧ (actReelWrite h o s).1.st = s.st
      ∧ (actReelWrite h o s).1.sq = s.sq ∧ (actReelWrite h o s).1.bc = s.bc ∧ (actReelWrite h o s).1.sg = s.sg
      ∧ (actReelWrite h o s).1.pc = s.pc ∧ (actReelWrite h o s).1.nq = s.nq ∧ (actReelWrite h o s).1.pp = s.pp
      ∧ (actReelWrite h o s).1.fri = s.fri ∧ (actReelWrite h o s).1.oh = s.oh ∧ (actReelWrite h o s).1.epoch = s.epoch
      ∧ (actReelWrite h o s).1.pending = s.pending := by
  unfold actReelWrite
  (repeat' split) <;> simp

@[simp] theorem actReelClear_frame (s : State) (h : OrderHead) (n : Nat) :
    (actReelClear h n s).1.tb = s.tb ∧ (actReelClear h n s).1.paths = s.paths ∧ (actReelClear h n s).1.st = s.st
      ∧ (actReelClear h n s).1.sq = s.sq ∧ (actReelClear h n s).1.bc = s.bc ∧ (actReelClear h n s).1.sg = s.sg
      ∧ (actReelClear h n s).1.pc = s.pc ∧ (actReelClear h n s).1.nq = s.nq ∧ (actReelClear h n s).1.pp = s.pp
      ∧ (actReelClear h n s).1.fri = s.fri ∧ (actReelClear h n s).1.oh = s.oh ∧ (actReelClear h n s).1.epoch = s.epoch
      ∧ (actReelClear h n s).1.pending = s.pending := by
  unfold actReelClear
  (repeat' split) <;> simp

@[simp] theorem actReelRead_frame (s : State) (h : OrderHead) (a : Nat × Nat) :
    (actReelRead h a s).1 = s := by
  unfold actReelRead
  rfl

@[simp] theorem startIdle_frame (s : State) (o : StartOrder) :
    (startIdle o s).1.paths = s.paths ∧ (startIdle o s).1.st = s.st ∧ (startIdle o s).1.bc = s.bc
      ∧ (startIdle o s).1.oh = s.oh ∧ (startIdle o s).1.epoch = s.epoch ∧ (startIdle o s).1.pending = s.pending := by
  unfold startIdle
  dsimp only
  (repeat' split) <;> simp

@[simp] theorem actReelStart_frame (s : State) (h : OrderHead) (o : StartOrder) :
    (actReelStart h o s).1.paths = s.paths ∧ (actReelStart h o s).1.st = s.st ∧ (actReelStart h o s).1.bc = s.bc
      ∧ (actReelStart h o s).1.oh = s.oh ∧ (actReelStart h o s).1.epoch = s.epoch
      ∧ (actReelStart h o s).1.pending = s.pending := by
  unfold actReelStart
  (repeat' split) <;> simp

@[simp] theorem actReelHalt_frame (s : State) (h : OrderHead) (p : Port) :
    (actReelHalt h p s).1.paths = s.paths ∧ (actReelHalt h p s).1.st = s.st ∧ (actReelHalt h p s).1.bc = s.bc
      ∧ (actReelHalt h p s).1.oh = s.oh ∧ (actReelHalt h p s).1.epoch = s.epoch
      ∧ (actReelHalt h p s).1.pending = s.pending := by
  unfold actReelHalt
  (repeat' split) <;> simp

@[simp] theorem actReelTest_frame (s : State) (h : OrderHead) (p : Port) :
    (actReelTest h p s).1.tb = s.tb ∧ (actReelTest h p s).1.paths = s.paths ∧ (actReelTest h p s).1.st = s.st
      ∧ (actReelTest h p s).1.sq = s.sq ∧ (actReelTest h p s).1.bc = s.bc ∧ (actReelTest h p s).1.sg = s.sg
      ∧ (actReelTest h p s).1.rl = s.rl ∧ (actReelTest h p s).1.nq = s.nq ∧ (actReelTest h p s).1.pp = s.pp
      ∧ (actReelTest h p s).1.fri = s.fri ∧ (actReelTest h p s).1.oh = s.oh ∧ (actReelTest h p s).1.epoch = s.epoch
      ∧ (actReelTest h p s).1.pending = s.pending := by
  unfold actReelTest
  (repeat' split) <;> simp

@[simp] theorem actPortsTest_frame (s : State) (h : OrderHead) (a : Unit) :
    (actPortsTest h a s).1 = s := by
  unfold actPortsTest
  rfl

@[simp] theorem actNoticePost_frame (s : State) (h : OrderHead) (o : PostOrder) :
    (actNoticePost h o s).1.oh = s.oh ∧ (actNoticePost h o s).1.epoch = s.epoch
      ∧ (actNoticePost h o s).1.pending = s.pending := by
  unfold actNoticePost
  (repeat' split) <;> simp

@[simp] theorem actNoticeWithdraw_frame (s : State) (h : OrderHead) (k : DeskTag) :
    (actNoticeWithdraw h k s).1.paths = s.paths ∧ (actNoticeWithdraw h k s).1.st = s.st
      ∧ (actNoticeWithdraw h k s).1.bc = s.bc ∧ (actNoticeWithdraw h k s).1.oh = s.oh
      ∧ (actNoticeWithdraw h k s).1.epoch = s.epoch ∧ (actNoticeWithdraw h k s).1.pending = s.pending := by
  unfold actNoticeWithdraw
  (repeat' split) <;> simp

@[simp] theorem actNoticeRead_frame (s : State) (h : OrderHead) (k : DeskTag) :
    (actNoticeRead h k s).1 = s := by
  unfold actNoticeRead
  (repeat' split) <;> rfl

@[simp] theorem actPortEnable_frame (s : State) (h : OrderHead) (p : Port) :
    (actPortEnable h p s).1.paths = s.paths ∧ (actPortEnable h p s).1.st = s.st ∧ (actPortEnable h p s).1.bc = s.bc
      ∧ (actPortEnable h p s).1.oh = s.oh ∧ (actPortEnable h p s).1.epoch = s.epoch
      ∧ (actPortEnable h p s).1.pending = s.pending := by
  unfold actPortEnable
  (repeat' split) <;> simp

@[simp] theorem actPortDisable_frame (s : State) (h : OrderHead) (p : Port) :
    (actPortDisable h p s).1.paths = s.paths ∧ (actPortDisable h p s).1.st = s.st ∧ (actPortDisable h p s).1.bc = s.bc
      ∧ (actPortDisable h p s).1.oh = s.oh ∧ (actPortDisable h p s).1.epoch = s.epoch
      ∧ (actPortDisable h p s).1.pending = s.pending := by
  unfold actPortDisable
  (repeat' split) <;> simp

@[simp] theorem actPortReset_frame (s : State) (h : OrderHead) (p : Port) :
    (actPortReset h p s).1.paths = s.paths ∧ (actPortReset h p s).1.st = s.st ∧ (actPortReset h p s).1.bc = s.bc
      ∧ (actPortReset h p s).1.oh = s.oh ∧ (actPortReset h p s).1.epoch = s.epoch
      ∧ (actPortReset h p s).1.pending = s.pending := by
  unfold actPortReset
  (repeat' split) <;> simp

@[simp] theorem actPortSet_frame (s : State) (m k : Nat) (h : OrderHead) (e : PortEdit) :
    (actPortSet m k h e s).1.paths = s.paths ∧ (actPortSet m k h e s).1.st = s.st ∧ (actPortSet m k h e s).1.oh = s.oh
      ∧ (actPortSet m k h e s).1.epoch = s.epoch ∧ (actPortSet m k h e s).1.pending = s.pending := by
  unfold actPortSet
  (repeat' split) <;> simp

@[simp] theorem actRouteSet_frame (s : State) (h : OrderHead) (a : Nat × PortSet) :
    (actRouteSet h a s).1.tb = s.tb ∧ (actRouteSet h a s).1.paths = s.paths ∧ (actRouteSet h a s).1.st = s.st
      ∧ (actRouteSet h a s).1.sq = s.sq ∧ (actRouteSet h a s).1.bc = s.bc ∧ (actRouteSet h a s).1.sg = s.sg
      ∧ (actRouteSet h a s).1.rl = s.rl ∧ (actRouteSet h a s).1.pc = s.pc ∧ (actRouteSet h a s).1.nq = s.nq
      ∧ (actRouteSet h a s).1.pp = s.pp ∧ (actRouteSet h a s).1.oh = s.oh ∧ (actRouteSet h a s).1.epoch = s.epoch
      ∧ (actRouteSet h a s).1.pending = s.pending := by
  unfold actRouteSet
  (repeat' split) <;> simp

@[simp] theorem actRouteRead_frame (s : State) (h : OrderHead) (n : Nat) :
    (actRouteRead h n s).1 = s := by
  unfold actRouteRead
  rfl

@[simp] theorem actHello_frame (s : State) (h : OrderHead) (a : Unit) :
    (actHello h a s).1 = s := by
  unfold actHello
  rfl

/-! ## The order in its cell -/

/-- An order leaves alone what its own effect leaves alone, and the FRI. -/

theorem State.order_tb {α : Type} (s : State) (code : Nat) (parse : List Byte → Option α)
    (base : List Byte → State → List Fld) (act : OrderHead → α → State → State × Answer)
    (h : ∀ x a t, (act x a t).1.tb = t.tb) : (s.order code parse base act).tb = s.tb := by
  unfold State.order
  (repeat' split) <;> simp [h]

theorem State.order_paths {α : Type} (s : State) (code : Nat) (parse : List Byte → Option α)
    (base : List Byte → State → List Fld) (act : OrderHead → α → State → State × Answer)
    (h : ∀ x a t, (act x a t).1.paths = t.paths) : (s.order code parse base act).paths = s.paths := by
  unfold State.order
  (repeat' split) <;> simp [h]

theorem State.order_st {α : Type} (s : State) (code : Nat) (parse : List Byte → Option α)
    (base : List Byte → State → List Fld) (act : OrderHead → α → State → State × Answer)
    (h : ∀ x a t, (act x a t).1.st = t.st) : (s.order code parse base act).st = s.st := by
  unfold State.order
  (repeat' split) <;> simp [h]

theorem State.order_sq {α : Type} (s : State) (code : Nat) (parse : List Byte → Option α)
    (base : List Byte → State → List Fld) (act : OrderHead → α → State → State × Answer)
    (h : ∀ x a t, (act x a t).1.sq = t.sq) : (s.order code parse base act).sq = s.sq := by
  unfold State.order
  (repeat' split) <;> simp [h]

theorem State.order_bc {α : Type} (s : State) (code : Nat) (parse : List Byte → Option α)
    (base : List Byte → State → List Fld) (act : OrderHead → α → State → State × Answer)
    (h : ∀ x a t, (act x a t).1.bc = t.bc) : (s.order code parse base act).bc = s.bc := by
  unfold State.order
  (repeat' split) <;> simp [h]

theorem State.order_sg {α : Type} (s : State) (code : Nat) (parse : List Byte → Option α)
    (base : List Byte → State → List Fld) (act : OrderHead → α → State → State × Answer)
    (h : ∀ x a t, (act x a t).1.sg = t.sg) : (s.order code parse base act).sg = s.sg := by
  unfold State.order
  (repeat' split) <;> simp [h]

theorem State.order_rl {α : Type} (s : State) (code : Nat) (parse : List Byte → Option α)
    (base : List Byte → State → List Fld) (act : OrderHead → α → State → State × Answer)
    (h : ∀ x a t, (act x a t).1.rl = t.rl) : (s.order code parse base act).rl = s.rl := by
  unfold State.order
  (repeat' split) <;> simp [h]

theorem State.order_pc {α : Type} (s : State) (code : Nat) (parse : List Byte → Option α)
    (base : List Byte → State → List Fld) (act : OrderHead → α → State → State × Answer)
    (h : ∀ x a t, (act x a t).1.pc = t.pc) : (s.order code parse base act).pc = s.pc := by
  unfold State.order
  (repeat' split) <;> simp [h]

theorem State.order_nq {α : Type} (s : State) (code : Nat) (parse : List Byte → Option α)
    (base : List Byte → State → List Fld) (act : OrderHead → α → State → State × Answer)
    (h : ∀ x a t, (act x a t).1.nq = t.nq) : (s.order code parse base act).nq = s.nq := by
  unfold State.order
  (repeat' split) <;> simp [h]

theorem State.order_pp {α : Type} (s : State) (code : Nat) (parse : List Byte → Option α)
    (base : List Byte → State → List Fld) (act : OrderHead → α → State → State × Answer)
    (h : ∀ x a t, (act x a t).1.pp = t.pp) : (s.order code parse base act).pp = s.pp := by
  unfold State.order
  (repeat' split) <;> simp [h]

theorem State.order_oh {α : Type} (s : State) (code : Nat) (parse : List Byte → Option α)
    (base : List Byte → State → List Fld) (act : OrderHead → α → State → State × Answer)
    (h : ∀ x a t, (act x a t).1.oh = t.oh) : (s.order code parse base act).oh = s.oh := by
  unfold State.order
  (repeat' split) <;> simp [h]

theorem State.order_epoch {α : Type} (s : State) (code : Nat) (parse : List Byte → Option α)
    (base : List Byte → State → List Fld) (act : OrderHead → α → State → State × Answer)
    (h : ∀ x a t, (act x a t).1.epoch = t.epoch) : (s.order code parse base act).epoch = s.epoch := by
  unfold State.order
  (repeat' split) <;> simp [h]

theorem State.order_pending {α : Type} (s : State) (code : Nat) (parse : List Byte → Option α)
    (base : List Byte → State → List Fld) (act : OrderHead → α → State → State × Answer)
    (h : ∀ x a t, (act x a t).1.pending = t.pending) : (s.order code parse base act).pending = s.pending := by
  unfold State.order
  (repeat' split) <;> simp [h]

end Sys2Proof.Machine
end

