-- ==== Sys2Proof/Laws/Tables.lean ====
section
/-! SUPPORT. The sparse tables and the content memory: what a read gives after a write, and that every write keeps the
canonical form. -/
namespace Sys2Proof.Machine

/-! ## Reading after writing -/

@[simp] theorem Tbl.get_nil {α : Type} (k : Nat) : Tbl.get ([] : Tbl α) k = none := rfl

@[simp] theorem Tbl.get_put_same {α : Type} (t : Tbl α) (k : Nat) (v : α) : Tbl.get (Tbl.put t k v) k = some v := by
  induction t with
  | nil => simp [Tbl.put, Tbl.get]
  | cons e t ih =>
    simp only [Tbl.put]
    split
    · simp [Tbl.get]
    · split
      · simp [Tbl.get]
      · rename_i h1 h2
        simp [Tbl.get, ih, show e.1 ≠ k from fun h => h2 h.symm]

theorem Tbl.get_put_other {α : Type} (t : Tbl α) {k j : Nat} (v : α) (h : k ≠ j) :
    Tbl.get (Tbl.put t k v) j = Tbl.get t j := by
  induction t with
  | nil => simp [Tbl.put, Tbl.get, h]
  | cons e t ih =>
    simp only [Tbl.put]
    split
    · simp [Tbl.get, h]
    · split
      · rename_i h1 h2
        simp [Tbl.get, h, show e.1 ≠ j from fun h' => h (h2.trans h')]
      · simp only [Tbl.get, ih]

theorem Tbl.get_put {α : Type} (t : Tbl α) (k j : Nat) (v : α) :
    Tbl.get (Tbl.put t k v) j = if k = j then some v else Tbl.get t j := by
  by_cases h : k = j
  · subst h; simp
  · simp [h, Tbl.get_put_other]

@[simp] theorem Tbl.get_erase_same {α : Type} (t : Tbl α) (k : Nat) : Tbl.get (Tbl.erase t k) k = none := by
  induction t with
  | nil => rfl
  | cons e t ih =>
    simp only [Tbl.erase]
    split
    · exact ih
    · rename_i h; simp [Tbl.get, h, ih]

theorem Tbl.get_erase_other {α : Type} (t : Tbl α) {k j : Nat} (h : k ≠ j) :
    Tbl.get (Tbl.erase t k) j = Tbl.get t j := by
  induction t with
  | nil => rfl
  | cons e t ih =>
    simp only [Tbl.erase]
    split
    · rename_i h1
      simp [Tbl.get, ih, show e.1 ≠ j from fun h' => h (h1.symm.trans h')]
    · simp [Tbl.get, ih]

theorem Tbl.get_erase {α : Type} (t : Tbl α) (k j : Nat) :
    Tbl.get (Tbl.erase t k) j = if k = j then none else Tbl.get t j := by
  by_cases h : k = j
  · subst h; simp
  · simp [h, Tbl.get_erase_other]

/-- A table with every entry changed in place. -/
theorem Tbl.get_map {α β : Type} (f : α → β) (t : Tbl α) (k : Nat) :
    Tbl.get (t.map fun e => (e.1, f e.2)) k = (Tbl.get t k).map f := by
  induction t with
  | nil => rfl
  | cons e t ih =>
    simp only [List.map_cons, Tbl.get]
    split
    · rfl
    · exact ih

theorem Tbl.getD_putD_same {α : Type} [DecidableEq α] (t : Tbl α) (k : Nat) (d v : α) :
    Tbl.getD (Tbl.putD t k d v) k d = v := by
  unfold Tbl.getD Tbl.putD
  split
  · rename_i h; simp [h]
  · simp

theorem Tbl.getD_putD_other {α : Type} [DecidableEq α] (t : Tbl α) {k j : Nat} (d v : α) (h : k ≠ j) :
    Tbl.getD (Tbl.putD t k d v) j d = Tbl.getD t j d := by
  unfold Tbl.getD Tbl.putD
  split
  · rw [Tbl.get_erase_other _ h]
  · rw [Tbl.get_put_other _ _ h]

/-! ## The canonical form -/

theorem Tbl.above_put {α : Type} (t : Tbl α) (j k : Nat) (v : α) (hj : j < k) (h : Tbl.above j t = true) :
    Tbl.above j (Tbl.put t k v) = true := by
  induction t with
  | nil => simp [Tbl.put, Tbl.above, hj]
  | cons e t ih =>
    simp only [Tbl.above, Bool.and_eq_true, decide_eq_true_eq] at h
    simp only [Tbl.put]
    split
    · simp [Tbl.above, hj, h.1, h.2]
    · split
      · simp [Tbl.above, hj, h.2]
      · simp [Tbl.above, h.1, ih h.2]

theorem Tbl.above_lower {α : Type} (t : Tbl α) {j k : Nat} (hj : j ≤ k) (h : Tbl.above k t = true) :
    Tbl.above j t = true := by
  induction t with
  | nil => rfl
  | cons e t ih =>
    simp only [Tbl.above, Bool.and_eq_true, decide_eq_true_eq] at h ⊢
    exact ⟨Nat.lt_of_le_of_lt hj h.1, ih h.2⟩

theorem Tbl.wf_put {α : Type} (t : Tbl α) (k : Nat) (v : α) (h : Tbl.wf t = true) : Tbl.wf (Tbl.put t k v) = true := by
  induction t with
  | nil => rfl
  | cons e t ih =>
    simp only [Tbl.wf, Bool.and_eq_true] at h
    simp only [Tbl.put]
    split
    · rename_i h1
      simp [Tbl.wf, Tbl.above, h1, Tbl.above_lower t (Nat.le_of_lt h1) h.1, h.1, h.2]
    · split
      · rename_i h2; subst h2; simp [Tbl.wf, h.1, h.2]
      · rename_i h1 h2
        simp [Tbl.wf, ih h.2, Tbl.above_put t e.1 k v (by omega) h.1]

theorem Tbl.above_erase {α : Type} (t : Tbl α) (j k : Nat) (h : Tbl.above j t = true) :
    Tbl.above j (Tbl.erase t k) = true := by
  induction t with
  | nil => rfl
  | cons e t ih =>
    simp only [Tbl.above, Bool.and_eq_true, decide_eq_true_eq] at h
    simp only [Tbl.erase]
    split
    · exact ih h.2
    · simp [Tbl.above, h.1, ih h.2]

theorem Tbl.wf_erase {α : Type} (t : Tbl α) (k : Nat) (h : Tbl.wf t = true) : Tbl.wf (Tbl.erase t k) = true := by
  induction t with
  | nil => rfl
  | cons e t ih =>
    simp only [Tbl.wf, Bool.and_eq_true] at h
    simp only [Tbl.erase]
    split
    · exact ih h.2
    · simp [Tbl.wf, ih h.2, Tbl.above_erase t e.1 k h.1]

theorem Tbl.wf_putD {α : Type} [DecidableEq α] (t : Tbl α) (k : Nat) (d v : α) (h : Tbl.wf t = true) :
    Tbl.wf (Tbl.putD t k d v) = true := by
  unfold Tbl.putD
  split
  · exact Tbl.wf_erase t k h
  · exact Tbl.wf_put t k v h

theorem Tbl.above_map {α β : Type} (f : α → β) (t : Tbl α) (j : Nat) :
    Tbl.above j (t.map fun e => (e.1, f e.2)) = Tbl.above j t := by
  induction t with
  | nil => rfl
  | cons e t ih => simp [Tbl.above, ih]

theorem Tbl.wf_map {α β : Type} (f : α → β) (t : Tbl α) : Tbl.wf (t.map fun e => (e.1, f e.2)) = Tbl.wf t := by
  induction t with
  | nil => rfl
  | cons e t ih => simp [Tbl.wf, ih, Tbl.above_map]

theorem Tbl.mem_put {α : Type} {t : Tbl α} {k : Nat} {v : α} {e : Nat × α} (h : e ∈ Tbl.put t k v) :
    e = (k, v) ∨ e ∈ t := by
  induction t with
  | nil => simpa [Tbl.put] using h
  | cons f t ih =>
    simp only [Tbl.put] at h
    split at h
    · simpa using h
    · split at h
      · rcases List.mem_cons.mp h with h | h
        · exact .inl h
        · exact .inr (List.mem_cons_of_mem _ h)
      · rcases List.mem_cons.mp h with h | h
        · exact .inr (h ▸ List.mem_cons_self)
        · rcases ih h with h | h
          · exact .inl h
          · exact .inr (List.mem_cons_of_mem _ h)

theorem Tbl.mem_erase {α : Type} {t : Tbl α} {k : Nat} {e : Nat × α} (h : e ∈ Tbl.erase t k) : e ∈ t ∧ e.1 ≠ k := by
  induction t with
  | nil => simp [Tbl.erase] at h
  | cons f t ih =>
    simp only [Tbl.erase] at h
    split at h
    · exact ⟨List.mem_cons_of_mem _ (ih h).1, (ih h).2⟩
    · rcases List.mem_cons.mp h with h | h
      · exact ⟨h ▸ List.mem_cons_self, h ▸ ‹_›⟩
      · exact ⟨List.mem_cons_of_mem _ (ih h).1, (ih h).2⟩

/-- Of a table whose empty places read as `d`, no write leaves an entry that reads as `d`. -/
theorem Tbl.putD_ne {α : Type} [DecidableEq α] {t : Tbl α} {k : Nat} {d v : α} (h : ∀ e ∈ t, e.2 ≠ d) :
    ∀ e ∈ Tbl.putD t k d v, e.2 ≠ d := by
  intro e he
  unfold Tbl.putD at he
  split at he
  · exact h e (Tbl.mem_erase he).1
  · rcases Tbl.mem_put he with he | he
    · simpa [he] using ‹_›
    · exact h e he

theorem Tbl.above_mem {α : Type} {t : Tbl α} {j : Nat} (h : Tbl.above j t = true) {e : Nat × α} (he : e ∈ t) : j < e.1 := by
  induction t with
  | nil => simp at he
  | cons g t ih =>
    simp only [Tbl.above, Bool.and_eq_true, decide_eq_true_eq] at h
    rcases List.mem_cons.mp he with he | he
    · exact he ▸ h.1
    · exact ih h.2 he

/-- In canonical form an entry is what its place reads as. -/
theorem Tbl.get_of_mem {α : Type} {t : Tbl α} (hw : Tbl.wf t = true) {e : Nat × α} (h : e ∈ t) :
    Tbl.get t e.1 = some e.2 := by
  induction t with
  | nil => simp at h
  | cons f t ih =>
    simp only [Tbl.wf, Bool.and_eq_true] at hw
    rcases List.mem_cons.mp h with h | h
    · simp [h, Tbl.get]
    · have : f.1 < e.1 := Tbl.above_mem hw.1 h
      simp [Tbl.get, Nat.ne_of_lt this, ih hw.2 h]

theorem Tbl.mem_of_get {α : Type} {t : Tbl α} {k : Nat} {v : α} (h : Tbl.get t k = some v) : (k, v) ∈ t := by
  induction t with
  | nil => simp at h
  | cons f t ih =>
    simp only [Tbl.get] at h
    split at h
    · rename_i h1; simp only [Option.some.injEq] at h; subst h1 h; exact List.mem_cons_self
    · exact List.mem_cons_of_mem _ (ih h)

/-! ## The content memory -/

theorem Memory.read_write (m : List Host.Cell) (a b : Nat) (x : Byte) :
    Memory.read (Memory.write m a x) b = if a = b then some x else Memory.read m b := Tbl.get_put m a b x

theorem Memory.wf_write (m : List Host.Cell) (a : Nat) (x : Byte) (h : Memory.wf m = true) :
    Memory.wf (Memory.write m a x) = true := Tbl.wf_put m a x h

theorem Memory.wf_writeBytes (xs : List Byte) (m : List Host.Cell) (a : Nat) (h : Memory.wf m = true) :
    Memory.wf (Memory.writeBytes m a xs) = true := by
  induction xs generalizing m a with
  | nil => exact h
  | cons x xs ih => exact ih _ _ (Memory.wf_write m a x h)

/-- What `writeBytes` leaves alone. -/
theorem Memory.read_writeBytes_outside (xs : List Byte) (m : List Host.Cell) (a b : Nat)
    (h : b < a ∨ a + xs.length ≤ b) : Memory.read (Memory.writeBytes m a xs) b = Memory.read m b := by
  induction xs generalizing m a with
  | nil => rfl
  | cons x xs ih =>
    simp only [List.length_cons] at h
    have hne : a ≠ b := by omega
    simp only [Memory.writeBytes]
    rw [ih _ _ (by omega), Memory.read_write, if_neg hne]

/-- What `writeBytes` writes. -/
theorem Memory.read_writeBytes_inside (xs : List Byte) (m : List Host.Cell) (a i : Nat) (h : i < xs.length) :
    Memory.read (Memory.writeBytes m a xs) (a + i) = xs[i]? := by
  induction xs generalizing m a i with
  | nil => simp at h
  | cons x xs ih =>
    simp only [Memory.writeBytes]
    cases i with
    | zero =>
      rw [Memory.read_writeBytes_outside _ _ _ _ (.inl (by omega)), Memory.read_write]
      simp
    | succ i =>
      have := ih (Memory.write m a x) (a + 1) i (by simpa using h)
      rw [show a + (i + 1) = a + 1 + i by omega, this]
      simp

end Sys2Proof.Machine
end

