-- ==== Sys2Proof/Laws/Claims.lean ====
section
/-! SUPPORT. All that the giving of places to claims, and everything a port, a context or a notice slot does, can change
outside its own records: `State.Calm s t`. One lemma for each such operation. -/
namespace Sys2Proof.Machine

/-- In a list whose keys differ, one key names one member. -/
theorem eq_of_nodup_map {α β : Type} {f : α → β} {l : List α} (h : (l.map f).Nodup) {a b : α} (ha : a ∈ l) (hb : b ∈ l)
    (e : f a = f b) : a = b := by
  induction l with
  | nil => simp at ha
  | cons x l ih =>
    simp only [List.map_cons, List.nodup_cons, List.mem_map, not_exists, not_and] at h
    rcases List.mem_cons.mp ha with ha | ha <;> rcases List.mem_cons.mp hb with hb | hb
    · rw [ha, hb]
    · exact absurd (by rw [← e, ha]) (h.1 b hb)
    · exact absurd (by rw [e, hb]) (h.1 a ha)
    · exact ih h.2 ha hb

/-- What stays of a state when claims are given places, runs end, pins move, slots change and notices close: the FRI but for
its queue (which only grows, and within its 16 places) and its claim; the clock and the count; the content memory; the
segments but for pins and freeing; the LIVE holds; the notices but for what leaves. -/
structure State.Calm (s t : State) : Prop where
  fri : t.fri = { s.fri with queue := t.fri.queue, restored := t.fri.restored }
  queue : ∃ l, t.fri.queue = s.fri.queue ++ l
  fits : s.fri.queue.length + s.fri.reservations ≤ 16 → t.fri.queue.length + t.fri.reservations ≤ 16
  tb : t.tb = { s.tb with dayRolled := t.tb.dayRolled }
  content : t.sg.content = s.sg.content
  segsWf : Tbl.wf s.sg.segs = true → Tbl.wf t.sg.segs = true
  segs : ∀ n g, t.segAt n = some g → ∃ f, s.segAt n = some f ∧ g = { f with pins := g.pins }
  holds : t.sq.holds.Sublist s.sq.holds
  live : (s.sq.holds.map Hold.key).Nodup →
    t.sq.holds.filter (fun h => h.state.isLive) = s.sq.holds.filter (fun h => h.state.isLive)
  notices : (t.nq.notices.map fun n => (n.key, n.priority)).Sublist (s.nq.notices.map fun n => (n.key, n.priority))

theorem State.Calm.refl (s : State) : s.Calm s :=
  ⟨rfl, ⟨[], by simp⟩, id, rfl, rfl, id, fun _ g h => ⟨g, h, rfl⟩, List.Sublist.refl _, fun _ => rfl, List.Sublist.refl _⟩

theorem State.Calm.trans {s t u : State} (a : s.Calm t) (b : t.Calm u) : s.Calm u where
  fri := by rw [b.fri, a.fri]
  queue := by
    obtain ⟨l, hl⟩ := a.queue
    obtain ⟨m, hm⟩ := b.queue
    exact ⟨l ++ m, by rw [hm, hl, List.append_assoc]⟩
  fits h := b.fits (a.fits h)
  tb := by rw [b.tb, a.tb]
  content := b.content.trans a.content
  segsWf h := b.segsWf (a.segsWf h)
  segs n g h := by
    obtain ⟨f, hf, e⟩ := b.segs n g h
    obtain ⟨k, hk, e'⟩ := a.segs n f hf
    exact ⟨k, hk, by rw [e, e']⟩
  holds := b.holds.trans a.holds
  live h := (b.live (((a.holds.map Hold.key).nodup) h)).trans (a.live h)
  notices := b.notices.trans a.notices

/-- An operation that touches none of the five owners is calm. -/
theorem State.Calm.of_eq {s t : State} (hf : t.fri = s.fri) (ht : t.tb = s.tb) (hg : t.sg = s.sg) (hq : t.sq = s.sq)
    (hn : t.nq.notices = s.nq.notices) : s.Calm t :=
  ⟨by rw [hf], ⟨[], by rw [hf]; simp⟩, by rw [hf]; exact id, by rw [ht], by rw [hg], by rw [hg]; exact id,
    fun n g h => ⟨g, by rw [← h]; simp only [State.segAt, hg], rfl⟩, by simp [hq],
    fun _ => by rw [hq], by simp [hn]⟩

theorem State.Calm.foldl {α : Type} (step : State → α → State) (h : ∀ (t : State) a, t.Calm (step t a)) (l : List α) (s : State) :
    s.Calm (l.foldl step s) := by
  induction l generalizing s with
  | nil => exact .refl s
  | cons a l ih => exact (h s a).trans (ih _)

theorem State.forPorts_calm (s : State) (ps : List Port) (f : Port → State → State) (h : ∀ p (t : State), t.Calm (f p t)) :
    s.Calm (s.forPorts ps f) := State.Calm.foldl _ (fun t p => h p t) ps s

/-! ## The updates -/

theorem State.setPort_calm (s : State) (p : Port) (r : PortRec) : s.Calm (s.setPort p r) :=
  .of_eq rfl rfl rfl rfl rfl
theorem State.setCtx_calm (s : State) (p : Port) (c : Context) : s.Calm (s.setCtx p c) :=
  .of_eq rfl rfl rfl rfl rfl
theorem State.setSlot_calm (s : State) (p : Port) (x : Slot) : s.Calm (s.setSlot p x) :=
  .of_eq rfl rfl rfl rfl rfl
theorem State.repaint_calm (s : State) (p : Port) : s.Calm (s.repaint p) := .of_eq rfl rfl rfl rfl rfl
theorem State.flushLive_calm (s : State) (p : Port) : s.Calm (State.flushLive p s) := .of_eq rfl rfl rfl rfl rfl
theorem State.setDarkOwed_calm (s : State) (p : Port) (b : Bool) : s.Calm (State.setDarkOwed p b s) :=
  .of_eq rfl rfl rfl rfl rfl
theorem State.setMode_calm (s : State) (p : Port) (m : PanelMode) : s.Calm (State.setMode p m s) :=
  .of_eq rfl rfl rfl rfl rfl
theorem State.lowerBinding_calm (s : State) (n : Nat) : s.Calm (State.lowerBinding n s) :=
  .of_eq (by simp) (by simp) (by simp) (by simp) (by simp)

/-- A change of a notice record that keeps its key and priority. -/
theorem State.mapNotice_calm (s : State) (k : DeskTag) (f : Notice → Notice)
    (h : ∀ n, (f n).key = n.key ∧ (f n).priority = n.priority) : s.Calm (State.mapNotice k f s) := by
  have hm : (State.mapNotice k f s).nq.notices.map (fun n => (n.key, n.priority))
      = s.nq.notices.map (fun n => (n.key, n.priority)) := by
    simp only [State.mapNotice, List.map_map]
    refine List.map_congr_left fun n _ => ?_
    by_cases hk : n.key = k <;> simp [hk, h n]
  exact ⟨rfl, ⟨[], by simp⟩, id, rfl, rfl, id, fun _ g h => ⟨g, h, rfl⟩, List.Sublist.refl _, fun _ => rfl,
    by simp [hm]⟩

theorem State.dropNotice_calm (s : State) (k : DeskTag) : s.Calm (s.dropNotice k) :=
  ⟨rfl, ⟨[], by simp⟩, id, rfl, rfl, id, fun _ g h => ⟨g, h, rfl⟩, List.Sublist.refl _, fun _ => rfl,
    (List.filter_sublist).map _⟩

/-- A change of a segment's pin count. -/
theorem State.setPins_calm (s : State) (n k : Nat) (g : Segment) (h : s.segAt n = some g) :
    s.Calm (s.setSeg n (.used { g with pins := k })) := by
  refine ⟨rfl, ⟨[], by simp⟩, id, rfl, rfl, fun hw => Tbl.wf_put _ _ _ hw, fun m f hf => ?_, List.Sublist.refl _,
    fun _ => rfl, List.Sublist.refl _⟩
  simp only [State.segAt, State.setSeg, Tbl.get_put] at hf
  by_cases hm : n = m
  · subst hm
    simp only [if_pos] at hf
    exact ⟨g, h, by simp at hf; rw [← hf]⟩
  · simp only [if_neg hm] at hf
    exact ⟨f, hf, rfl⟩

/-- A record freed, with its claim. -/
theorem State.setFreed_calm (s : State) (n : Nat) (c : FreedClaim) : s.Calm (s.setSeg n (.freed c)) := by
  refine ⟨rfl, ⟨[], by simp⟩, id, rfl, rfl, fun hw => Tbl.wf_put _ _ _ hw, fun m f hf => ?_, List.Sublist.refl _,
    fun _ => rfl, List.Sublist.refl _⟩
  simp only [State.segAt, State.setSeg, Tbl.get_put] at hf
  by_cases hm : n = m
  · simp [hm] at hf
  · simp only [if_neg hm] at hf
    exact ⟨f, hf, rfl⟩

/-- A record made EMPTY. -/
theorem State.emptySeg_calm (s : State) (n : Nat) : s.Calm (s.emptySeg n) := by
  refine ⟨rfl, ⟨[], by simp⟩, id, rfl, rfl, fun hw => Tbl.wf_erase _ _ hw, fun m f hf => ?_, List.Sublist.refl _,
    fun _ => rfl, List.Sublist.refl _⟩
  simp only [State.segAt, State.emptySeg, Tbl.get_erase] at hf
  by_cases hm : n = m
  · simp [hm] at hf
  · simp only [if_neg hm] at hf
    exact ⟨f, hf, rfl⟩

/-- A LAPSED record that leaves the hold table. -/
theorem State.dropHold_calm (s : State) (h : Hold) (hm : h ∈ s.sq.holds) (hl : h.state.isLive = false) :
    s.Calm (s.dropHold h.key) := by
  refine ⟨rfl, ⟨[], by simp⟩, id, rfl, rfl, id, fun _ g h => ⟨g, h, rfl⟩, List.filter_sublist, fun hn => ?_,
    List.Sublist.refl _⟩
  simp only [State.dropHold, List.filter_filter]
  refine List.filter_congr fun x hx => ?_
  by_cases hk : x.key = h.key
  · have hxh : x = h := eq_of_nodup_map hn hx hm hk
    simp [hxh, hl]
  · simp [hk]

/-! ## Places given to claims (R178) -/

theorem State.placeFree_iff (s : State) :
    s.placeFree = true ↔ s.resetTaken .feedRing = false ∧ s.fri.queue.length + s.fri.reservations < 16 := by
  simp only [State.placeFree, Config.replyPlaces, Bool.and_eq_true, Bool.not_eq_true']
  exact ⟨fun h => ⟨h.1, of_decide_eq_true h.2⟩, fun h => ⟨h.1, decide_eq_true h.2⟩⟩

theorem State.queueReport_calm (s : State) (k : ReportKind) (body : List Fld) (h : s.placeFree = true) :
    s.Calm (s.queueReport k body) :=
  ⟨rfl, ⟨_, rfl⟩, fun _ => by
      have := ((State.placeFree_iff s).mp h).2
      simp only [State.queueReport, List.length_append, List.length_singleton]
      omega,
    rfl, rfl, id, fun _ g h => ⟨g, h, rfl⟩, List.Sublist.refl _, fun _ => rfl, List.Sublist.refl _⟩

/-- A FEED_RESTORED or DAY_ROLLED claim cleared. -/
theorem State.clearClaims_calm (s : State) (a : Option RestoredClaim) (b : Option DayRolled) :
    s.Calm { s with fri := { s.fri with restored := a }, tb := { s.tb with dayRolled := b } } :=
  ⟨rfl, ⟨[], by simp⟩, id, rfl, rfl, id, fun _ g h => ⟨g, h, rfl⟩, List.Sublist.refl _, fun _ => rfl, List.Sublist.refl _⟩

/-- R178: all that giving a claim its place can do. -/
theorem State.serve_calm (s : State) (c : Claim) (h : s.placeFree = true) : s.Calm (s.serve c) := by
  have q : ∀ k body, s.Calm (s.queueReport k body) := fun k body => State.queueReport_calm s k body h
  cases c with
  | status p =>
    simp only [State.serve]
    split
    · exact (q _ _).trans (State.setCtx_calm _ _ _)
    · exact .refl s
  | mark p =>
    simp only [State.serve]
    split
    · split
      · exact (q _ _).trans (State.setCtx_calm _ _ _)
      · exact .refl s
    · exact .refl s
  | lapse k =>
    simp only [State.serve]
    split
    · rename_i x hx
      have hk := List.find?_some hx
      simp only [Bool.and_eq_true, decide_eq_true_eq, Bool.not_eq_true'] at hk
      have := State.dropHold_calm (s.queueReport .holdLapsed (lapseReportFields x)) x
        (by simpa using List.mem_of_find?_eq_some hx) hk.2
      rw [hk.1] at this
      exact (q _ _).trans this
    · exact .refl s
  | closing k =>
    simp only [State.serve]
    split
    · exact (q _ _).trans (State.dropNotice_calm _ _)
    · exact .refl s
  | freed n =>
    simp only [State.serve]
    split
    · exact (q _ _).trans (State.emptySeg_calm _ _)
    · exact .refl s
  | portEvent p =>
    simp only [State.serve]
    split
    · exact (q _ _).trans (State.setPort_calm _ _ _)
    · exact .refl s
  | restored =>
    simp only [State.serve]
    split
    · exact (q _ _).trans (State.clearClaims_calm _ none _)
    · exact .refl s
  | dayRolled =>
    simp only [State.serve]
    split
    · exact (q _ _).trans (State.clearClaims_calm _ _ none)
    · exact .refl s

theorem State.serveUpTo_calm (n : Nat) (s : State) : s.Calm (State.serveUpTo n s) := by
  induction n generalizing s with
  | zero => exact .refl s
  | succ n ih =>
    unfold State.serveUpTo
    split
    · split
      · exact (State.serve_calm s _ ‹_›).trans (ih _)
      · exact .refl s
    · exact .refl s

theorem State.serveWaiting_calm (s : State) : s.Calm s.serveWaiting := State.serveUpTo_calm _ s

theorem State.reportStep_calm (s : State) (k : ReportKind) : s.Calm (State.reportStep k s) := by
  unfold State.reportStep
  (repeat' split) <;> first | exact State.serve_calm s _ ‹_› | exact .refl s

theorem State.withClaim_calm (s : State) (make : State → State) (h : ∀ t : State, t.Calm (make t)) :
    s.Calm (s.withClaim make) :=
  ((State.serveWaiting_calm s).trans (h _)).trans (State.serveWaiting_calm _)

/-! ## Pins and runs (chapters 4 and 5) -/

theorem State.addPin_calm (s : State) (n : Nat) : s.Calm (State.addPin n s) := by
  unfold State.addPin
  split
  · exact State.setPins_calm s n _ _ ‹_›
  · exact .refl s

theorem State.releasePin_calm (s : State) (n : Nat) : s.Calm (State.releasePin n s) := by
  unfold State.releasePin
  split
  · exact .refl s
  · split
    · exact .refl s
    · split
      · exact State.withClaim_calm _ _ fun t => State.setFreed_calm t _ _
      · exact State.setPins_calm s n _ _ ‹_›

theorem State.releaseSome_calm (s : State) (x : Option Nat) : s.Calm (State.releaseSome x s) := by
  unfold State.releaseSome
  split
  · exact State.releasePin_calm s _
  · exact .refl s

theorem State.fillPrefetch_calm (s : State) (p : Port) (r : Run) (i : Nat) (w : ReelWord) (b : Bool) :
    s.Calm (State.fillPrefetch p r i w b s) := by
  unfold State.fillPrefetch
  split
  · exact (State.addPin_calm s _).trans (State.setCtx_calm _ _ _)
  · exact State.setCtx_calm s _ _
  · exact State.setCtx_calm s _ _

theorem State.prefetch_calm (s : State) (p : Port) : s.Calm (State.prefetch p s) := by
  unfold State.prefetch
  (repeat' split) <;> first | exact .refl s | exact State.fillPrefetch_calm s _ _ _ _ _ | exact State.setCtx_calm s _ _

theorem State.markWord_calm (s : State) (p : Port) : s.Calm (State.markWord p s) := by
  unfold State.markWord
  split
  · exact .refl s
  · split
    · refine State.withClaim_calm s _ fun t => ?_
      dsimp only
      split
      · exact .refl t
      · exact State.setCtx_calm t _ _
    · exact .refl s

theorem State.endRun_calm (s : State) (p : Port) (e : EndReason) (f x : Option Nat) : s.Calm (State.endRun p e f x s) := by
  unfold State.endRun
  split
  · exact .refl s
  · exact ((((State.setCtx_calm s _ _).trans (State.releaseSome_calm _ _)).trans (State.releaseSome_calm _ _)).trans
      (State.lowerBinding_calm _ _)).trans (State.withClaim_calm _ _ fun t => State.setCtx_calm t _ _)

theorem State.breakRun_calm (s : State) (p : Port) (e : EndReason) : s.Calm (State.breakRun p e s) := by
  unfold State.breakRun
  split
  · exact .refl s
  · exact State.endRun_calm s _ _ _ _

theorem State.portEndsRun_calm (s : State) (p : Port) (e : EndReason) : s.Calm (State.portEndsRun p e s) := by
  unfold State.portEndsRun
  split
  · exact .refl s
  · exact State.breakRun_calm s _ _

theorem State.haltCheck_calm (s : State) (p : Port) : s.Calm (State.haltCheck p s) := by
  unfold State.haltCheck
  (repeat' split) <;> first | exact .refl s | exact State.breakRun_calm s _ _

theorem State.wordEnd_calm (s : State) (p : Port) : s.Calm (State.wordEnd p s) := by
  unfold State.wordEnd
  split
  · exact .refl s
  · rename_i r hr
    have a : s.Calm (State.releasePin r.cur.segment s) := State.releasePin_calm s _
    generalize State.releasePin r.cur.segment s = t at a
    dsimp only
    split
    · split
      · exact a
      · exact ((a.trans (State.setCtx_calm t _ _)).trans (State.markWord_calm _ _)).trans (State.prefetch_calm _ _)
    · exact a.trans (State.endRun_calm t _ _ _ _)
    · exact a.trans (State.endRun_calm t _ _ _ _)
    · split
      · exact a
      · exact (a.trans (State.setCtx_calm t _ _)).trans (State.endRun_calm _ _ _ _ _)
    · exact a.trans (State.endRun_calm t _ _ _ _)
    · exact a.trans (State.endRun_calm t _ _ _ _)

theorem State.suspend_calm (s : State) (p : Port) : s.Calm (State.suspend p s) := by
  unfold State.suspend
  (repeat' split) <;> first | exact .refl s | exact State.breakRun_calm s _ _ | exact State.setCtx_calm s _ _

theorem State.resume_calm (s : State) (p : Port) : s.Calm (State.resume p s) := by
  unfold State.resume
  (repeat' split) <;> first | exact .refl s | exact State.setCtx_calm s _ _

theorem State.restartWord_calm (s : State) (p : Port) : s.Calm (State.restartWord p s) := by
  unfold State.restartWord
  (repeat' split) <;> first | exact .refl s | exact State.breakRun_calm s _ _ | exact State.setCtx_calm s _ _

theorem State.afterPicture_calm (s : State) (p : Port) : s.Calm (State.afterPicture p s) := by
  unfold State.afterPicture
  dsimp only
  have a := State.prefetch_calm s p
  (repeat' split) <;> first | exact a.trans (State.wordEnd_calm _ _) | exact a

/-! ## Slots (chapter 6) -/

theorem State.flushStaging_calm (s : State) (p : Port) : s.Calm (State.flushStaging p s) := by
  unfold State.flushStaging
  dsimp only
  have a := fun r => State.setPort_calm s p r
  split
  · exact (a _).trans (State.haltCheck_calm _ _)
  · exact a _

theorem State.moveRecords_calm (s : State) (p : Port) (l : Option Shown) (n : Option Notice) :
    s.Calm (State.moveRecords p l n s) := by
  have a : ∀ (t : State) k q m, t.Calm (State.mapNotice k (Notice.enter q m) t) := fun t k q m =>
    State.mapNotice_calm t k _ fun _ => ⟨rfl, rfl⟩
  have b : ∀ (t : State) k, t.Calm (State.mapNotice k Notice.leave t) := fun t k =>
    State.mapNotice_calm t k _ fun x => by unfold Notice.leave; split <;> exact ⟨rfl, rfl⟩
  unfold State.moveRecords
  cases n <;> cases l <;> dsimp only
  · exact .refl s
  · split
    · exact .refl s
    · exact b s _
  · exact a s _ _ _
  · split
    · exact a s _ _ _
    · exact (a s _ _ _).trans (b _ _)

theorem State.tellTakeover_calm (s : State) (p : Port) (x y : Bool) : s.Calm (State.tellTakeover p x y s) := by
  unfold State.tellTakeover
  (repeat' split) <;> first
    | exact .refl s
    | exact State.flushLive_calm s p
    | exact (State.flushLive_calm s p).trans (State.suspend_calm _ _)
    | exact State.resume_calm s p

/-- R125, R126, R130: all that selecting a port's notice again can do. -/
theorem State.selectPort_calm (s : State) (p : Port) : s.Calm (State.selectPort p s) := by
  unfold State.selectPort
  dsimp only
  split
  · exact .refl s
  · exact ((State.setSlot_calm s _ _).trans (State.moveRecords_calm _ _ _ _)).trans (State.tellTakeover_calm _ _ _ _)

theorem State.selectPorts_calm (s : State) (ps : PortSet) : s.Calm (State.selectPorts ps s) :=
  State.forPorts_calm s _ _ fun p t => State.selectPort_calm t p

theorem State.releaseNotice_calm (s : State) (n : Notice) : s.Calm (State.releaseNotice n s) := by
  unfold State.releaseNotice
  split
  · exact .refl s
  · exact State.releasePin_calm s _

theorem State.closeNotice_calm (s : State) (m : Nat) (n : Notice) : s.Calm (State.closeNotice m n s) := by
  have a := State.mapNotice_calm s n.key (fun x => { x with state := .closing m }) fun _ => ⟨rfl, rfl⟩
  have b := a.trans (State.selectPorts_calm _ (s.showingPorts n.key))
  have c := b.trans (State.releaseNotice_calm _ n)
  have d := fun t : State => State.mapNotice_calm t n.key (fun x => { x with claimed := true }) fun _ => ⟨rfl, rfl⟩
  exact c.trans (State.withClaim_calm _ (State.mapNotice n.key fun x => { x with claimed := true }) d)

theorem State.withdraw_calm (s : State) (n : Notice) : s.Calm (State.withdraw n s) := by
  unfold State.withdraw
  exact ((State.releaseNotice_calm s n).trans (State.dropNotice_calm _ _)).trans (State.selectPorts_calm _ _)

/-! ## Ports (chapter 7) -/

theorem State.enterLinking_calm (s : State) (p : Port) : s.Calm (State.enterLinking p s) :=
  (State.setPort_calm s _ _).trans (State.selectPort_calm _ _)

theorem State.addPortClaim_calm (s : State) (p : Port) (e : PortEvent) : s.Calm (State.addPortClaim p e s) :=
  State.withClaim_calm s _ fun t => State.setPort_calm t _ _

theorem State.claimRestore_calm (s : State) (p : Port) (d : Option RestoreDue) : s.Calm (State.claimRestore p d s) := by
  unfold State.claimRestore
  split
  · exact State.addPortClaim_calm s _ _
  · exact .refl s

theorem State.cutFirst_calm (s : State) (p : Port) : s.Calm (State.cutFirst p s) := by
  unfold State.cutFirst
  (repeat' split) <;> first | exact .refl s | exact State.setCtx_calm s _ _

theorem State.linkReady_calm (s : State) (p : Port) : s.Calm (State.linkReady p s) :=
  (((((State.setPort_calm s _ _).trans (State.repaint_calm _ _)).trans (State.cutFirst_calm _ _)).trans
    (State.setSlot_calm _ _ _)).trans (State.selectPort_calm _ _)).trans (State.claimRestore_calm _ _ _)

theorem State.slipPort_calm (s : State) (p : Port) : s.Calm (State.slipPort p s) :=
  ((((State.flushStaging_calm s p).trans (State.flushLive_calm _ _)).trans (State.setPort_calm _ _ _)).trans
    (State.restartWord_calm _ _)).trans (State.enterLinking_calm _ _)

theorem State.noteStall_calm (s : State) (p : Port) (c : StallCause) (f : PortState) : s.Calm (State.noteStall p c f s) := by
  unfold State.noteStall
  split
  · exact State.setPort_calm s _ _
  · exact (State.setPort_calm s _ _).trans (State.addPortClaim_calm _ _ _)

theorem State.stall_calm (s : State) (p : Port) (c : StallCause) : s.Calm (State.stall p c s) :=
  (((((State.flushStaging_calm s p).trans (State.flushLive_calm _ _)).trans (State.setPort_calm _ _ _)).trans
    (State.selectPort_calm _ _)).trans (State.portEndsRun_calm _ _ _)).trans (State.noteStall_calm _ _ _ _)

theorem State.drainDone_calm (s : State) (p : Port) : s.Calm (State.drainDone p s) := by
  unfold State.drainDone
  split
  · exact (State.setPort_calm s _ _).trans (State.selectPort_calm _ _)
  · exact .refl s

theorem State.flushDraining_calm (s : State) (p : Port) : s.Calm (State.flushDraining p s) :=
  (State.flushStaging_calm s p).trans (State.drainDone_calm _ _)

theorem State.leaveLive_calm (s : State) (p : Port) : s.Calm (State.leaveLive p s) :=
  (State.suspend_calm s p).trans (State.flushLive_calm _ _)

theorem State.modeChange_calm (s : State) (p : Port) (m : PanelMode) : s.Calm (State.modeChange p m s) := by
  have a := State.setMode_calm s p m
  have b := fun t : State => State.selectPort_calm t p
  have l := fun t : State => State.leaveLive_calm t p
  have d := fun (t : State) x => State.setDarkOwed_calm t p x
  have r := fun t : State => State.resume_calm t p
  have q := fun t : State => State.repaint_calm t p
  unfold State.modeChange
  dsimp only
  split
  · exact .refl s
  · exact .refl s
  · exact .refl s
  · exact (a.trans (l _)).trans (b _)
  · exact ((a.trans (l _)).trans (d _ _)).trans (b _)
  · exact (a.trans (d _ _)).trans (b _)
  · exact (a.trans (b _)).trans (r _)
  · exact (((a.trans (d _ _)).trans (q _)).trans (b _)).trans (r _)
  · exact ((a.trans (d _ _)).trans (q _)).trans (b _)

theorem State.wake_calm (s : State) (k : DeskTag) (n : Nat) (p : Port) : s.Calm (State.wake k n p s) :=
  (State.modeChange_calm s p .live).trans (State.addPortClaim_calm _ _ _)

theorem State.disablePort_calm (s : State) (p : Port) : s.Calm (State.disablePort p s) :=
  ((((State.portEndsRun_calm s _ _).trans (State.flushLive_calm _ _)).trans (State.setPort_calm _ _ _)).trans
    (State.selectPort_calm _ _)).trans (State.drainDone_calm _ _)

theorem State.resetPort_calm (s : State) (p : Port) : s.Calm (State.resetPort p s) :=
  ((((State.flushStaging_calm s p).trans (State.flushLive_calm _ _)).trans (State.portEndsRun_calm _ _ _)).trans
    (State.setPort_calm _ _ _)).trans (State.enterLinking_calm _ _)

theorem State.remeasureHold_calm (s : State) (p : Port) (x : Option Nat) (ms : Nat) :
    s.Calm (State.remeasureHold p x ms s) := by
  unfold State.remeasureHold
  (repeat' split) <;> first | exact .refl s | exact State.stall_calm s _ _ | exact State.flushDraining_calm s _

theorem State.nameMode_calm (s : State) (p : Port) (m : Option PanelMode) : s.Calm (State.nameMode p m s) := by
  unfold State.nameMode
  split
  · exact State.modeChange_calm s _ _
  · exact .refl s

theorem State.setSettings_calm (s : State) (e : PortEdit) (m n : Nat) : s.Calm (State.setSettings e m n s) :=
  ((State.setPort_calm s _ _).trans (State.nameMode_calm _ _ _)).trans (State.remeasureHold_calm _ _ _ _)

theorem State.startLink_calm (s : State) (p : Port) : s.Calm (State.startLink p s) := by
  unfold State.startLink
  dsimp only
  split
  · exact (State.setPort_calm s _ _).trans (State.linkReady_calm _ _)
  · exact (State.setPort_calm s _ _).trans (State.setPort_calm _ _ _)

theorem State.cellStart_calm (s : State) (p : Port) (us : Nat) : s.Calm (State.cellStart p us s) := by
  unfold State.cellStart
  (repeat' split) <;> first | exact State.startLink_calm s _ | exact State.setPort_calm s _ _ | exact .refl s

theorem State.cellSent_calm (s : State) (p : Port) : s.Calm (State.cellSent p s) := by
  unfold State.cellSent
  split
  · exact .refl s
  · dsimp only
    split
    · exact (((State.setPort_calm s _ _).trans (State.haltCheck_calm _ _)).trans (State.selectPort_calm _ _)).trans
        (State.drainDone_calm _ _)
    · exact ((State.setPort_calm s _ _).trans (State.selectPort_calm _ _)).trans (State.drainDone_calm _ _)

theorem State.holdAsserted_calm (s : State) (p : Port) : s.Calm (State.holdAsserted p s) :=
  (State.setPort_calm s _ _).trans (State.selectPort_calm _ _)

theorem State.holdReleased_calm (s : State) (p : Port) : s.Calm (State.holdReleased p s) :=
  (State.setPort_calm s _ _).trans (State.selectPort_calm _ _)

theorem State.slip_calm (s : State) (p : Port) : s.Calm (State.slip p s) := by
  have a : s.Calm (State.setHold p true s) := State.setPort_calm s _ _
  unfold State.slip
  dsimp only
  (repeat' split) <;> first
    | exact .refl s
    | exact a
    | exact a.trans (State.slipPort_calm _ _)
    | exact a.trans (State.setPort_calm _ _ _)
    | exact a.trans (State.flushDraining_calm _ _)

theorem State.holdTimeout_calm (s : State) (p : Port) (ms : Nat) : s.Calm (State.holdTimeout p ms s) := by
  unfold State.holdTimeout
  (repeat' split) <;> first | exact .refl s | exact State.stall_calm s _ _ | exact State.flushDraining_calm s _

theorem State.linkTimeout_calm (s : State) (p : Port) (ms : Nat) : s.Calm (State.linkTimeout p ms s) := by
  unfold State.linkTimeout
  split
  · exact State.stall_calm s _ _
  · exact .refl s

theorem State.retryTimeout_calm (s : State) (p : Port) (ms : Nat) : s.Calm (State.retryTimeout p ms s) := by
  unfold State.retryTimeout
  split
  · exact State.enterLinking_calm s _
  · exact .refl s

theorem State.keepAliveTimeout_calm (s : State) (p : Port) (ms : Nat) : s.Calm (State.keepAliveTimeout p ms s) := by
  unfold State.keepAliveTimeout
  split
  · exact State.setPort_calm s _ _
  · exact .refl s

theorem State.resetLine_calm (s : State) (p : Port) : s.Calm (State.resetLine p s) := by
  unfold State.resetLine
  dsimp only
  split
  · exact (((State.flushStaging_calm s p).trans (State.setPort_calm _ _ _)).trans (State.setPort_calm _ _ _)).trans
      (State.selectPort_calm _ _)
  · exact ((State.flushStaging_calm s p).trans (State.setPort_calm _ _ _)).trans (State.enterLinking_calm _ _)

/-! ## Takes (7.7) -/

theorem State.contextTake_calm (s : State) (p : Port) (r : Run) : s.Calm (State.contextTake p r s).2 := by
  unfold State.contextTake
  split
  · exact State.setCtx_calm s _ _
  · exact (State.setCtx_calm s _ _).trans (State.afterPicture_calm _ _)

theorem State.streamTake_calm (s : State) (p : Port) (x : Source) : s.Calm (State.streamTake p x s).2 := by
  cases x with
  | takeover seg => exact State.setSlot_calm s _ _
  | context r => exact State.contextTake_calm s p r
  | live c rest =>
    simp only [State.streamTake, State.liveTake]
    split
    · exact State.setPort_calm s _ _
    · exact State.setPort_calm s _ _

theorem State.arbiterTake_calm (s : State) (p : Port) : s.Calm (State.arbiterTake p s) := by
  have g := fun (t : State) c b =>
    (State.setPort_calm t p { t.port p with nextPlace := some (t.build p c b), keepAlive := .running } :
      t.Calm (State.stage p c b t))
  have k : s.Calm (State.takeKeepAlive p s) := by
    unfold State.takeKeepAlive
    split
    · exact g s _ _
    · exact .refl s
  unfold State.arbiterTake
  split
  · exact .refl s
  · split
    · exact (State.setDarkOwed_calm s _ _).trans (g _ _ _)
    · unfold State.takeLit
      split
      · exact k
      · split
        · exact (State.setSlot_calm s _ _).trans (g _ _ _)
        · unfold State.takePanel
          split
          · refine State.Calm.trans ?_ (g _ _ _)
            exact .of_eq (by simp) (by simp) (by simp) (by simp) (by simp)
          · split
            · refine State.Calm.trans ?_ (g _ _ _)
              exact (State.streamTake_calm s _ _).trans (State.setPort_calm _ _ _)
            · exact k

end Sys2Proof.Machine
end

