-- ==== Sys2Proof/Laws/Orders.lean ====
section
/-! SUPPORT. What `State.order` answers: one lemma for an order that passes its checks, one for each way it does not. -/
namespace Sys2Proof.Machine

theorem mayBroadcast_iff (code : Nat) : mayBroadcast code = true ↔ code = 0x01 ∨ code = 0x08 := by
  simp [mayBroadcast]

theorem guardExempt_iff (code : Nat) :
    guardExempt code = true ↔ code = 0x01 ∨ code = 0x02 ∨ code = 0x08 ∨ code = 0x09 := by
  simp [guardExempt]

theorem LobbyClock.isRunning_iff (c : LobbyClock) : c.isRunning = true ↔ c ≠ .unset := by
  cases c <;> simp [LobbyClock.isRunning]

/-- R170: the order in progress, when it has arrived. -/
theorem State.orderOf_arrived {s : State} {code : Nat} {c : List Byte} (h : s.arrived code c) : s.orderOf code = some c := by
  obtain ⟨hr, hh, hk, hc⟩ := h
  simp [State.orderOf, State.inProgress, hr, hh, hk, hc, kindOrder, Option.filter]

/-- The checks of R186 passed. -/
theorem checkOrder_passes {α : Type} {s : State} {code : Nat} {parse : List Byte → Option α} {c : List Byte} {a : α}
    (base : List Byte → State → List Fld) (h : s.passes code parse c a) : checkOrder parse base c s = .passed a := by
  obtain ⟨⟨_, _, _, hc⟩, hp, hd, hdesk, hkey, ha, hg⟩ := h
  subst hc
  have h1 : ¬(cellDest c = Config.broadcastAddress ∧ ¬ mayBroadcast (orderHead c).code = true) := by
    rintro ⟨x, y⟩
    exact y ((mayBroadcast_iff _).mpr (hd x))
  have h2 : ¬((orderHead c).desk > 31 ∨ (orderHead c).key > 15) := by omega
  have h3 : ¬((orderHead c).guard = true ∧ ¬ guardExempt (orderHead c).code = true ∧ ¬ s.tb.clock.isRunning = true) := by
    rintro ⟨x, y, z⟩
    rcases hg x with k | k
    · exact z ((LobbyClock.isRunning_iff _).mpr k)
    · exact y ((guardExempt_iff _).mpr k)
  unfold checkOrder
  rw [hp, ha]
  simp only [Bool.not_true, Bool.false_eq_true, if_false, if_neg h1, if_neg h2, if_neg h3]

/-- An order that passes its checks is carried out, and answered once. -/
theorem State.order_passes {α : Type} {s : State} {code : Nat} {parse : List Byte → Option α} {c : List Byte} {a : α}
    (base : List Byte → State → List Fld) (act : OrderHead → α → State → State × Answer) (h : s.passes code parse c a) :
    s.order code parse base act = (act (orderHead c) a s).1.answer c (act (orderHead c) a s).2 := by
  simp only [State.order, State.orderOf_arrived h.1, checkOrder_passes base h]

/-- Placing the answer in the words of the statements. -/
theorem State.answer_eq (s : State) (c : List Byte) (a : Answer) :
    s.answer c a = { s with fri := s.replied c a.outcome a.reason a.body } := rfl

/-- A refusal changes nothing but the FRI, where its reply is placed. -/
theorem State.answer_refuse (s : State) (c : List Byte) (r : Reason) (body : List Fld) :
    s.answer c (.refuse r body) = s.refused c r body := rfl

end Sys2Proof.Machine
end

