-- ==== Sys2Proof/Laws/Runs.lean ====
section
/-! SUPPORT. What the end of a run leaves at its context (R108, R110): `State.endedWith`, kept by every giving of places; and the
reply fields of REEL HALT. -/
namespace Sys2Proof.Machine

/-- R111, R199 item 4: an IDLE context. -/
@[simp] theorem haltFields_none : haltFields none = [.num 1 0] := rfl
/-- R111, R199 items 4 and 10: a running context. -/
@[simp] theorem haltFields_some (b : Bool) : haltFields (some b) = [.num 1 1, .num 1 (if b then 1 else 0)] := rfl

theorem State.Calm.now {s t : State} (h : s.Calm t) : t.tb.runSeconds = s.tb.runSeconds := by rw [h.tb]

/-- Nothing but the context of its port and the reply queue bears on how a run has ended. -/
theorem State.endedWith_of_eq {s t : State} {p : Port} {x : StatusRecord} (h : s.endedWith p x) (hc : t.ctx p = s.ctx p)
    (hq : ∃ l, t.fri.queue = s.fri.queue ++ l) : t.endedWith p x := by
  obtain ⟨l, hl⟩ := hq
  rcases h with h | ⟨h, m⟩
  · exact .inl (hc.trans h)
  · exact .inr ⟨hc.trans h, by rw [hl]; exact List.mem_append_left _ m⟩

/-- R110: a place given to a claim leaves an ended run ended: the record's own place makes it a report, in the run second of its
end, and another claim's place leaves it alone. -/
theorem State.serve_endedWith {s : State} {p : Port} {x : StatusRecord} (c : Claim) (h : s.endedWith p x)
    (hx : x.endTime = s.tb.runSeconds) (hf : s.placeFree = true) : (s.serve c).endedWith p x := by
  have calm := State.serve_calm s c hf
  have keeps (e : (s.serve c).ctx p = s.ctx p) : (s.serve c).endedWith p x := State.endedWith_of_eq h e calm.queue
  cases c with
  | status q =>
    by_cases hq : q = p
    · subst hq
      rcases h with h | ⟨h, m⟩
      · refine .inr ⟨by simp [State.serve, h, Context.record?], ?_⟩
        simp [State.serve, h, Context.record?, State.queueReport, State.now, hx]
      · exact keeps (by simp [State.serve, h, Context.record?])
    · refine keeps ?_
      simp only [State.serve]
      split
      · exact State.ctx_setCtx_other _ _ hq
      · rfl
  | mark q =>
    refine keeps ?_
    by_cases hq : q = p
    · subst hq
      rcases h with h | ⟨h, m⟩ <;> simp [State.serve, h, Context.run?]
    · simp only [State.serve]
      split
      · split
        · exact State.ctx_setCtx_other _ _ hq
        · rfl
      · rfl
  | lapse k => exact keeps (by simp only [State.serve]; split <;> rfl)
  | closing k => exact keeps (by simp only [State.serve]; split <;> rfl)
  | freed n => exact keeps (by simp only [State.serve]; split <;> rfl)
  | portEvent q => exact keeps (by simp only [State.serve]; split <;> rfl)
  | restored => exact keeps (by simp only [State.serve]; split <;> rfl)
  | dayRolled => exact keeps (by simp only [State.serve]; split <;> rfl)

theorem State.serveUpTo_endedWith (n : Nat) {s : State} {p : Port} {x : StatusRecord} (h : s.endedWith p x)
    (hx : x.endTime = s.tb.runSeconds) : (State.serveUpTo n s).endedWith p x := by
  induction n generalizing s with
  | zero => exact h
  | succ n ih =>
    unfold State.serveUpTo
    split
    · next hf =>
      split
      · exact ih (State.serve_endedWith _ h hx hf) (hx.trans (State.serve_calm s _ hf).now.symm)
      · exact h
    · exact h

theorem State.serveWaiting_endedWith {s : State} {p : Port} {x : StatusRecord} (h : s.endedWith p x)
    (hx : x.endTime = s.tb.runSeconds) : s.serveWaiting.endedWith p x := State.serveUpTo_endedWith _ h hx

/-- A claim that leaves the context alone leaves an ended run ended. -/
theorem State.withClaim_endedWith {s : State} {p : Port} {x : StatusRecord} (make : State → State)
    (hm : ∀ t : State, t.Calm (make t)) (hc : ∀ t : State, (make t).ctx p = t.ctx p) (h : s.endedWith p x)
    (hx : x.endTime = s.tb.runSeconds) : (s.withClaim make).endedWith p x := by
  have calm := (State.serveWaiting_calm s).trans (hm s.serveWaiting)
  exact State.serveWaiting_endedWith
    (State.endedWith_of_eq (State.serveWaiting_endedWith h hx) (hc _) (hm _).queue) (hx.trans calm.now.symm)

/-- R108, R109: the end of a run leaves its record, whatever claims are given places meanwhile. -/
theorem State.endRun_endedWith {s : State} {p : Port} {r : Run} (h : (s.ctx p).run? = some r) (reason : EndReason)
    (failed curPin : Option Nat) :
    (State.endRun p reason failed curPin s).endedWith p (r.record p reason failed s.tb.runSeconds) := by
  have calm : s.Calm (State.lowerBinding r.reel
      (State.releaseSome r.slot.pinned (State.releaseSome curPin (s.setCtx p (.running { r with mark := none }))))) :=
    (((State.setCtx_calm s _ _).trans (State.releaseSome_calm _ _)).trans (State.releaseSome_calm _ _)).trans
      (State.lowerBinding_calm _ _)
  simp only [State.endRun, h, State.withClaim]
  refine State.serveWaiting_endedWith (.inl (State.ctx_setCtx_same _ _ _)) ?_
  exact ((calm.trans (State.serveWaiting_calm _)).trans (State.setCtx_calm _ _ _)).now.symm

end Sys2Proof.Machine
end

