-- ==== Sys2Proof/Tests/Slice0.lean ====
section
/-! SUPPORT. Small tests: the check of well-formedness, the words of the spec's encodings, one step of the commands, and for
every statement with hypotheses a state that meets them. -/
namespace Sys2Proof.Tests
open Sys2Proof Sys2Proof.Machine

-- One thread at a time: many kernel evaluations side by side would each hold a stack of its own.
set_option Elab.async false

/-! ## Cells and states -/

/-- A cell of the spec's layout (10.1) with payload `p`. -/
def cellOf (kind dest : Nat) (extra p : List Byte) : List Byte :=
  let w := (checkWord p).toNat
  sealCell ([BitVec.ofNat 8 kind, 0, BitVec.ofNat 8 dest, 30] ++ extra ++ [BitVec.ofNat 8 (w / 256), BitVec.ofNat 8 w]) p

/-- The eight header bytes of a cell that carries none of its own. -/
def noExtra : List Byte := [0, 0, 0, 0, 0, 0, 0, 0]

/-- An ORDER cell (10.2), its tag 77 and desk 3. -/
def orderCell (code key guard : Nat) (fs : List Fld) : List Byte :=
  cellOf 1 0 noExtra (payloadOf ([.num 8 code, .num 16 77, .num 8 3, .num 8 key, .num 8 guard] ++ fs))

/-- A LOAD cell (10.1) of 64 zero bytes. -/
def loadCell (segment index key : Nat) : List Byte :=
  cellOf 2 0 (bytesOfNat 2 segment ++ bytesOfNat 3 index ++ bytesOfNat 1 key ++ [0, 0]) zeroPayload

theorem bytesOfNat_two (v : Nat) : bytesOfNat 2 v = [BitVec.ofNat 8 (v / 256), BitVec.ofNat 8 v] := by
  simp [bytesOfNat, List.range_succ]

theorem eight (l : List Byte) (h : l.length = 8) : ∃ a b c d e f g i, l = [a, b, c, d, e, f, g, i] := by
  match l, h with
  | [a, b, c, d, e, f, g, i], _ => exact ⟨a, b, c, d, e, f, g, i, rfl⟩

theorem cellPayload_cellOf (kind dest : Nat) (extra p : List Byte) (h : extra.length = 8) :
    cellPayload (cellOf kind dest extra p) = p := by
  obtain ⟨a, b, c, d, e, f, g, i, rfl⟩ := eight extra h
  simp [cellPayload, cellOf, sealCell, bytesOfNat_two]

/-- The payload check of such a cell passes. -/
theorem payloadOk_cellOf (kind dest : Nat) (extra p : List Byte) (h : extra.length = 8) :
    payloadOk (cellOf kind dest extra p) = true := by
  simp only [payloadOk, cellPayload_cellOf kind dest extra p h]
  obtain ⟨a, b, c, d, e, f, g, i, rfl⟩ := eight extra h
  have w := (checkWord p).isLt
  simp [byteAt, cellOf, sealCell]
  omega

/-- A cell with byte 13 one higher. -/
def spoiled (c : List Byte) : List Byte := c.set 13 (c.getD 13 0 + 1)

theorem payloadOk_spoiled (kind dest : Nat) (extra p : List Byte) (h : extra.length = 8) :
    payloadOk (spoiled (cellOf kind dest extra p)) = false := by
  obtain ⟨a, b, c, d, e, f, g, i, rfl⟩ := eight extra h
  have w := (checkWord p).isLt
  simp [payloadOk, cellPayload, byteAt, spoiled, cellOf, sealCell, bytesOfNat_two, BitVec.toNat_add]
  omega

/-- The state in which one cell stands in the intake. -/
def holding (c : List Byte) (s : State) : State := { s with fri := { s.fri with intake := [c], reservations := 1 } }

/-- What an order of one intake cell must meet beside its payload check. -/
def meets {α : Type} [DecidableEq α] (s : State) (code : Nat) (parse : List Byte → Option α) (c : List Byte) (a : α) : Bool :=
  decide (s.oh.reset = none) && decide ((orderHead c).code = code) && decide ((orderHead c).desk ≤ 31)
    && decide ((orderHead c).key ≤ 15) && decide (parse c = some a)
    && decide ((orderHead c).guard = true → s.tb.clock ≠ .unset ∨ code = 0x01 ∨ code = 0x02 ∨ code = 0x08 ∨ code = 0x09)

theorem passes_of_meets {α : Type} [DecidableEq α] {s : State} {code n key guard : Nat} {fs : List Fld}
    {parse : List Byte → Option α} {a : α} (h : meets s code parse (orderCell n key guard fs) a = true) :
    (holding (orderCell n key guard fs) s).passes code parse (orderCell n key guard fs) a := by
  simp only [meets, Bool.and_eq_true, decide_eq_true_eq] at h
  obtain ⟨⟨⟨⟨⟨h1, h2⟩, h3⟩, h4⟩, h5⟩, h6⟩ := h
  have hd : cellDest (orderCell n key guard fs) = 0 := rfl
  exact ⟨⟨h1, rfl, rfl, h2⟩, payloadOk_cellOf _ _ _ _ rfl, fun x => by rw [hd] at x; omega, h3, h4, h5, h6⟩


/-! ## A lobby to try things on -/

def showIn (phase : Phase) (sold held : Nat) : Show :=
  { auditorium := 1, title := 0, start := 100, delay := 0, doors := 10, window := 10, format := 1, capacity := 10, few := 2,
    band := 1, phase := phase, cancelledListed := false, sold := sold, held := held, avail := .opn }

def word (segment count : Nat) : ReelWord :=
  { segment := segment, offset := 0, count := count, cut := true, loop := false, mark := false, skip := false, gate := none }

def seg (state : SegState) (firstPage length key fill pins : Nat) : Segment :=
  { state := state, firstPage := firstPage, length := length, key := key, fill := fill, check := 0, pins := pins }

def notice (tag priority : Nat) (targets : PortSet) (state : NoticeState) : Notice :=
  { key := { desk := 0, tag := tag }, priority := priority, body := .text [0x41], targets := targets, duration := 60,
    deadline := some 160, binding := none, state := state, claimed := false, shownOn := 0, firstShown := none }

def line (state : PortState) : PortRec := { PortRec.initial false with state := state, keepAlive := .running }
/-- The LINK cell of port `p` of unit 0, and a picture cell that the context of P0 has given. -/
def link (p : Port) : Staged := { cell := PanelCell.bytes 0 p .link, fromContext := false }
def picture : Staged := { cell := PanelCell.bytes 0 0 (.picture zeroPayload), fromContext := true }
def liveHold : Hold := { key := { desk := 0, tag := 1 }, showNo := 0, seats := 2, deadline := 200, state := .live }
def lapsedHold : Hold := { key := { desk := 0, tag := 2 }, showNo := 0, seats := 1, deadline := 50, state := .lapsed .expired 50 }

/-- P0 READY, P1 HELD, P3 LINKING, P4 STALLED, P5 DRAINING, the others OFF. -/
def lobby : State :=
  { State.reset with
    tb := { runSeconds := 100, clock := .running 90 0, dayRolled := none }
    st := { titles := [(0, [0x41]), (1, [])]
            shows := [(0, showIn .selling 3 2), (1, showIn .draft 0 0), (2, showIn .ended 0 0), (3, showIn .seating 10 0),
                      (4, showIn .cancelled 1 0), (5, showIn .running 0 0)] }
    sq := { holds := [liveHold, lapsedHold] }
    sg := { segs := [(0, .used (seg .ready 0 10 1 10 0)), (1, .used (seg .loading 1 2 1 1 0)),
                     (2, .used (seg .retiring 2 65 0 65 1)),
                     (3, .freed { runSecond := 90, firstPage := 5, pages := 1, key := 0 })]
            content := [] }
    rl := { reels := [(0, { words := [word 0 9, word 0 1], binding := 0 }), (1, { words := [word 0 1], binding := 1 })] }
    nq := { State.reset.nq with notices := [notice 5 2 4 .waiting, { notice 6 0 0 (.closing 80) with claimed := true }] }
    pp := { ports := ((((State.reset.pp.ports.set 0 (line .ready)).set 1 { line .held with holdTimer := true, hold := true }).set 3
              { line .linking with nextPlace := some (link 3), linkTimer := true, linkCount := 3, linkSent := true }).set 4
              { line .stalled with retryTimer := true }).set 5 { line .draining with sendingPlace := some (link 5) } }
    fri := { State.reset.fri with feed := .up, lossTimer := true } }

/-- No place of the reply queue is free. -/
def packed (s : State) : State :=
  { s with fri := { s.fri with queue := List.replicate 16 (.report { kind := .dayRolled, built := 0, body := [] }) } }

/-- A run on reel 0, at word `i`, with `left` cells of the word still to play. -/
def runAt (i left : Nat) (slot : Prefetch) : Run :=
  { suspended := false, reel := 0, key := 0, repeatLeft := 2, passes := 0, tag := 7, curIndex := i, cur := word 0 left,
    residual := left, slot := slot, cutDue := false, halting := false, mark := none }

def endRecord : StatusRecord :=
  { port := 0, reel := 0, tag := 7, reason := .ended, lastWord := some 1, residual := 0, passes := 1, failedWord := none,
    lostMark := none, endTime := 90 }

abbrev withHead (s : State) (code : Nat) (fs : List Fld) : State := holding (orderCell code 0 0 fs) s

/-! ## Well-formedness, and the words of the encodings -/

theorem test_short_cell_refused : (Instr.feedCellArrival (List.replicate 79 0) true).wellFormed = false := by decide
theorem test_long_cell_refused : (Instr.feedCellArrival (List.replicate 81 0) true).wellFormed = false := by decide
theorem test_whole_cell_accepted : (Instr.feedCellArrival (List.replicate 80 0) true).wellFormed = true := by decide
theorem test_other_commands_well_formed : (Instr.powerOn 31).wellFormed = true ∧ (Instr.cellStart 11 5).wellFormed = true := by
  decide
/-- R197: the check word of the nine characters 1 to 9. -/
theorem test_check_word : checkWord [0x31, 0x32, 0x33, 0x34, 0x35, 0x36, 0x37, 0x38, 0x39] = 0x29B1 := by decide +kernel
/-- 10.2, R199: an order's first bytes. -/
theorem test_payload_bytes : (payloadOf [.num 8 0x20, .num 16 77, .num 8 3, .num 8 0, .num 8 0, .num 5 1, .num 16 9, .num 7 95,
    .num 5 20, .num 10 30]).take 12 = [0x20, 0, 77, 3, 0, 0, 0x08, 0x00, 0x4D, 0xFA, 0x03, 0xC0] := by decide +kernel
theorem test_no_row_has_bits : decodeTableWord 8 0 = none ∧ State.reset.withFetchWord 8 0 = State.reset := ⟨rfl, rfl⟩

/-- The order with these fields is in progress in `s`, and passes its checks. -/
abbrev takes {α : Type} (s : State) (code : Nat) (fs : List Fld) (parse : List Byte → Option α) (a : α) : Prop :=
  (withHead s code fs).passes code parse (orderCell code 0 0 fs) a

/-- Port `p` stands in the entry of channel 62. -/
def routed (p : Port) : State := { lobby with fri := { lobby.fri with routes := [(62, if p = 0 then 0x002 else 0x001)] } }
def markedRun : Run := { runAt 0 9 .empty with mark := some { wordIndex := 0, passes := 0, runSecond := 95, overrun := 0 } }
def claimed : PortRec := { line .off with claims := [{ event := .woken { desk := 0, tag := 5 } 2 90, occurrences := 1 }] }
def fedAgain : RestoredClaim := { lossTime := 60, restoreTime := 70, lost := 10, occurrences := 1 }
/-- The lobby without a LAPSED hold, without a CLOSING notice either, without a freed segment either. -/
def unheld (s : State) : State := { s with sq := { holds := [liveHold] } }
def unnoticed (s : State) : State := { unheld s with nq := { s.nq with notices := [] } }
def unfreed (s : State) : State := { unnoticed s with sg := { s.sg with segs := [] } }

/-- Show 0 has ENDED, its LIVE hold stands, and its end notice is still on the path; show 4 has one too, and no hold. -/
def noticed : State :=
  { lobby with
    st := { lobby.st with shows := Tbl.put lobby.st.shows 0 (showIn .ended 3 2) }
    paths := { lobby.paths with endNotices := [(0, .showEnded), (4, .showEnded)] } }

/-- A UNIT RESET is in progress, a LOAD cell behind it, and the owners of the list have still to take it. -/
def resetting (os : List Owner) (s : State) : State :=
  { s with
    fri := { s.fri with intake := [orderCell 0x02 0 0 [], loadCell 1 1 1], reservations := 2 }
    oh := { s.oh with reset := some { owners := os, discarded := 0, bouncedKind := none } } }

/-! ## The hypotheses of the statements can be met -/

/-- R44: what the statements on a show with an untaken end notice ask of a state. -/
theorem witness_end_notice :
    (noticed.endCause 0 = some .showEnded ∧ noticed.liveHolds 0 = [liveHold] ∧ ¬ noticed.full ∧ (packed noticed).full
        ∧ (packed noticed).endCause 0 = some .showEnded)
      ∧ (noticed.endCause 4 = some .showEnded ∧ noticed.liveHolds 4 = [])
      ∧ noticed.holdAt liveHold.key = some liveHold ∧ liveHold.state = .live ∧ liveHold.showNo = 0 := by decide +kernel

theorem witness_StepRunsTheFrontCommand : lobby.pending = [] := rfl

theorem witness_WellFormedCommandsComplete :
    Instr.hello.wellFormed = true ∧ (Instr.feedCellArrival (List.replicate 80 0) false).wellFormed = true
      ∧ ([] : List Byte).length ≠ 80 := by decide

theorem witness_OnlyOneCommandWrites :
    (∃ t, exec .runSecond lobby = .next t) ∧ (∀ straps, Instr.runSecond ≠ .powerOn straps) := ⟨⟨_, rfl⟩, by decide⟩

theorem witness_AbsentCommandsChangeNothing :
    (orderCode .seatHold = some 0x20 ∧ ∀ c, ¬ lobby.arrived 0x20 c)
      ∧ (∀ c, lobby.fri.intake.head? = some c → lobby.oh.reset = none → cellKind c ≠ 2)
      ∧ (∀ c, lobby.fri.intake.head? = some c → lobby.oh.reset = none → cellKind c = 1 → (orderHead c).code ∈ orderCodes)
      ∧ (∀ x, lobby.oh.reset = some x → Owner.timebase ∉ x.owners) := by
  refine ⟨⟨rfl, fun c h => ?_⟩, fun c h => ?_, fun c h => ?_, fun x h => ?_⟩
  · exact nomatch h.2.1
  · exact nomatch h
  · exact nomatch h
  · exact nomatch h

theorem witness_SecondsAreCounted :
    lobby.tb.runSeconds < 4294967295
      ∧ 4294967295 ≤ ({ lobby with tb := { lobby.tb with runSeconds := 4294967295 } } : State).tb.runSeconds
      ∧ State.reset.tb.clock = .unset ∧ lobby.tb.clock = .running 90 0
      ∧ (let s := { lobby with tb := { lobby.tb with clock := .running 1798 59 } }
         s.tb.clock = .running 1798 59)
      ∧ (let s := packed { lobby with tb := { lobby.tb with clock := .running 1799 59 } }
         s.tb.clock = .running 1799 59 ∧ s.full)
      ∧ (let s := { lobby with tb := { lobby.tb with clock := .running 1799 59 }, sq := { holds := [] }
                               nq := State.reset.nq, sg := State.reset.sg }
         ¬ s.full ∧ s.oh.reset = none ∧ s.firstClaim = none) := by decide +kernel

theorem witness_MinuteEventsMoveShowsAndBoards :
    let s := { lobby with paths := { lobby.paths with showMinutes := [91], boardMinutes := [91] } }
    let r := { s with oh := { s.oh with reset := some { owners := [.timebase], discarded := 0, bouncedKind := none } } }
    lobby.paths.showMinutes = [] ∧ lobby.paths.boardMinutes = [] ∧ s.paths.showMinutes = [91] ∧ s.paths.boardMinutes = [91]
      ∧ s.resetTaken .boardComposer = false ∧ r.resetTaken .boardComposer = true := by decide +kernel

theorem witness_ClockSetSetsClockAndShows :
    (withHead lobby 0x08 [.num 11 1799, .num 6 59]).passes 0x08 parseClockSet
      (orderCell 0x08 0 0 [.num 11 1799, .num 6 59]) (1799, 59) := passes_of_meets (by decide +kernel)

theorem witness_ClockReadAnswersTheClock : (withHead lobby 0x09 []).passes 0x09 parseNone (orderCell 0x09 0 0 []) () :=
  passes_of_meets (by decide +kernel)

/-- The deadline of the hold of show 0 is reached while the end notices of shows 0 and 4 are on the path. -/
def noticedDue : State := packed { noticed with paths := { noticed.paths with tallySeconds := [200] } }

theorem witness_HoldsLapseAtDeadlineOrEnd :
    (noticedDue.paths.tallySeconds = [200] ∧ noticedDue.holdsLaw ∧ Tbl.wf noticedDue.st.shows = true ∧ noticedDue.full ∧ noticedDue.endCause 0 = some .showEnded
      ∧ (noticedDue.liveHolds 0).any (fun h => decide (h.deadline ≤ 200)) = true ∧ noticedDue.liveHolds 4 = [])
    ∧ (let s := packed { lobby with paths := { lobby.paths with tallySeconds := [200] } }
     lobby.paths.tallySeconds = [] ∧ s.paths.tallySeconds = [200] ∧ s.paths.endNotices = [] ∧ s.holdsLaw
       ∧ Tbl.wf s.st.shows = true ∧ s.showAt 0 = some (showIn .selling 3 2) ∧ s.full)
    ∧ (let s := packed { lobby with paths := { lobby.paths with endNotices := [(0, .showEnded)] } }
       lobby.paths.endNotices = [] ∧ s.paths.endNotices = [(0, .showEnded)] ∧ s.holdsLaw
         ∧ s.showAt 0 = some (showIn .selling 3 2) ∧ s.full)
    ∧ (let s := packed { lobby with st := { lobby.st with shows := [] }
                                    paths := { lobby.paths with endNotices := [(0, .showEnded)] } }
       s.paths.endNotices = [(0, .showEnded)] ∧ s.holdsLaw ∧ s.showAt 0 = none ∧ s.liveHolds 0 = [liveHold] ∧ s.full)
    ∧ (let s := withHead noticed 0x21 [.num 5 0, .num 16 1]
       s.passes 0x21 parseKey (orderCell 0x21 0 0 [.num 5 0, .num 16 1]) liveHold.key ∧ liveHold ∈ s.sq.holds
         ∧ liveHold.state = .live ∧ s.holdsLaw ∧ ¬ s.full ∧ (liveHold.showNo, .showEnded) ∈ s.paths.endNotices
         ∧ ∀ e ∈ s.paths.endNotices, e.2 = .showEnded) :=
  ⟨by unfold State.holdsLaw; decide +kernel, by unfold State.holdsLaw; decide +kernel, by unfold State.holdsLaw; decide +kernel,
    by unfold State.holdsLaw; decide +kernel, passes_of_meets (by decide +kernel), by unfold State.holdsLaw; decide +kernel⟩

theorem witness_NoticesCloseAtTheirDeadline :
    let s := packed { lobby with paths := { lobby.paths with noticeSeconds := [160] } }
    lobby.paths.noticeSeconds = [] ∧ s.paths.noticeSeconds = [160] ∧ s.noticesLaw ∧ s.full := by
  unfold State.noticesLaw; decide +kernel

theorem witness_OrderChecksInSequence :
    let bad := spoiled (orderCell 0x13 0 0 [.num 7 1])
    let wide := cellOf 1 31 noExtra (payloadOf [.num 8 0x13, .num 16 77, .num 8 3, .num 8 0, .num 8 0, .num 7 1])
    let desk := cellOf 1 0 noExtra (payloadOf [.num 8 0x13, .num 16 77, .num 8 32, .num 8 0, .num 8 0, .num 7 1])
    (∀ c, (holding c State.reset).fri.intake.head? = some c) ∧ orderCode .showPublish = some 0x13
      ∧ (cellKind bad = 1 ∧ (orderHead bad).code = 0x13 ∧ payloadOk bad = false)
      ∧ (cellKind wide = 1 ∧ (orderHead wide).code = 0x13 ∧ payloadOk wide = true ∧ cellDest wide = 31)
      ∧ (cellKind desk = 1 ∧ (orderHead desk).code = 0x13 ∧ payloadOk desk = true ∧ cellDest desk = 0 ∧ (orderHead desk).desk = 32)
      ∧ (payloadOk (orderCell 0x13 16 0 [.num 7 1]) = true ∧ (orderHead (orderCell 0x13 16 0 [.num 7 1])).key = 16)
      ∧ (payloadOk (orderCell 0x13 0 0 [.num 7 96]) = true
          ∧ fieldsInRange .showPublish (orderCell 0x13 0 0 [.num 7 96]) = false)
      ∧ (payloadOk (orderCell 0x13 0 1 [.num 7 95]) = true ∧ (orderHead (orderCell 0x13 0 1 [.num 7 95])).guard = true
          ∧ fieldsInRange .showPublish (orderCell 0x13 0 1 [.num 7 95]) = true ∧ State.reset.tb.clock = .unset)
      ∧ (cellKind (orderCell 0x7F 0 0 []) = 1 ∧ (orderHead (orderCell 0x7F 0 0 [])).code ∉ orderCodes
          ∧ payloadOk (orderCell 0x7F 0 0 []) = true) := by
  refine ⟨fun _ => rfl, rfl, ⟨by decide +kernel, by decide +kernel, payloadOk_spoiled _ _ _ _ rfl⟩, ⟨by decide +kernel, by decide +kernel, payloadOk_cellOf _ _ _ _ rfl, rfl⟩,
    ⟨by decide +kernel, by decide +kernel, payloadOk_cellOf _ _ _ _ rfl, rfl, by decide +kernel⟩,
    ⟨payloadOk_cellOf _ _ _ _ rfl, by decide +kernel⟩, ⟨payloadOk_cellOf _ _ _ _ rfl, by decide +kernel⟩,
    ⟨payloadOk_cellOf _ _ _ _ rfl, by decide +kernel, by decide +kernel, rfl⟩, rfl, by decide +kernel,
    payloadOk_cellOf _ _ _ _ rfl⟩

theorem witness_EveryOrderIsAnsweredOnce :
    orderCode .showRead = some 0x18 ∧ Instr.showRead ≠ .unitReset
      ∧ (withHead lobby 0x18 [.num 7 0]).arrived 0x18 (orderCell 0x18 0 0 [.num 7 0]) :=
  ⟨rfl, by decide, (passes_of_meets (parse := parseShow) (a := 0) (by decide +kernel)).1⟩

theorem witness_TitleOrdersFillAndEmptyPlaces :
    (withHead lobby 0x10 [.num 6 63, .num 6 1, .num 8 0x41]).passes 0x10 parseTitleLoad
        (orderCell 0x10 0 0 [.num 6 63, .num 6 1, .num 8 0x41]) (63, [0x41])
      ∧ (withHead lobby 0x11 [.num 6 1]).passes 0x11 (parseOne 6 63) (orderCell 0x11 0 0 [.num 6 1]) 1
      ∧ lobby.titleAt 63 = none ∧ lobby.titleAt 1 = some [] ∧ (lobby.st.shows.filter fun e => e.2.title = 1) = []
      ∧ lobby.titleAt 0 = some [0x41] ∧ (lobby.st.shows.filter fun e => e.2.title = 0).map Prod.fst = [0, 1, 2, 3, 4, 5] :=
  ⟨passes_of_meets (by decide +kernel), passes_of_meets (by decide +kernel), by decide +kernel⟩

def loadFields (n start : Nat) : List Fld :=
  [.num 7 n, .num 5 24, .num 6 0, .num 11 start, .num 6 0, .num 6 10, .num 4 1, .num 10 999, .num 10 998, .num 6 0]

def showFields (start : Nat) : ShowFields :=
  { auditorium := 24, title := 0, start := start, doors := 0, window := 10, format := 1, capacity := 999, few := 998, band := 0 }

theorem witness_ShowLoadAndPublish :
    (takes lobby 0x12 (loadFields 6 1789) parseShowLoad (6, showFields 1789) ∧ lobby.showAt 6 = none ∧ 1789 + 10 ≤ 1799)
      ∧ (takes lobby 0x12 (loadFields 1 1790) parseShowLoad (1, showFields 1790) ∧ lobby.showAt 1 = some (showIn .draft 0 0)
          ∧ 1799 < 1790 + 10)
      ∧ (takes lobby 0x12 (loadFields 0 100) parseShowLoad (0, showFields 100) ∧ lobby.showAt 0 = some (showIn .selling 3 2))
      ∧ (takes lobby 0x13 [.num 7 95] parseShow 95 ∧ lobby.showAt 95 = none)
      ∧ (takes lobby 0x13 [.num 7 0] parseShow 0 ∧ Phase.selling ≠ .draft)
      ∧ (takes lobby 0x13 [.num 7 1] parseShow 1 ∧ lobby.titleAt 0 ≠ none
          ∧ ({ lobby with st := { lobby.st with titles := [] } } : State).titleAt 0 = none) :=
  ⟨⟨passes_of_meets (by decide +kernel), by decide +kernel⟩, ⟨passes_of_meets (by decide +kernel), by decide +kernel⟩,
    ⟨passes_of_meets (by decide +kernel), by decide +kernel⟩, ⟨passes_of_meets (by decide +kernel), by decide +kernel⟩,
    ⟨passes_of_meets (by decide +kernel), by decide +kernel⟩, ⟨passes_of_meets (by decide +kernel), by decide +kernel⟩⟩

def editFields (m : Nat) (fs : List Fld) : List Fld := [.num 7 0, .num 9 m] ++ fs

def noEdit : ShowEdit :=
  { showNo := 0, auditorium := none, title := none, start := none, doors := none, window := none, format := none,
    capacity := none, few := none, band := none }

/-- An edit of few and band alone, one of the title, one of the capacity and one of the window. -/
theorem witness_ShowEditWritesTheNamedFields :
    (takes lobby 0x14 (editFields 0x003 [.num 10 4, .num 6 0]) parseShowEdit { noEdit with few := some 4, band := some 0 }
        ∧ lobby.showAt 0 = some (showIn .selling 3 2)
        ∧ ({ noEdit with few := some 4, band := some 0 } : ShowEdit).allowed .selling = true)
      ∧ (takes lobby 0x14 (editFields 0x100 [.num 5 2]) parseShowEdit { noEdit with auditorium := some 2 }
          ∧ ({ noEdit with auditorium := some 2 } : ShowEdit).allowed .selling = false)
      ∧ (takes lobby 0x14 (editFields 0x080 [.num 6 5]) parseShowEdit { noEdit with title := some 5 } ∧ lobby.titleAt 5 = none
          ∧ ({ noEdit with title := some 5 } : ShowEdit).allowed .selling = true)
      ∧ (takes lobby 0x14 (editFields 0x004 [.num 10 4]) parseShowEdit { noEdit with capacity := some 4 } ∧ 4 < 3 + 2
          ∧ ({ noEdit with capacity := some 4 } : ShowEdit).allowed .selling = true)
      ∧ ({ lobby with st := { lobby.st with shows := [(0, { showIn .selling 3 2 with start := 1780 })] } } : State).showAt 0
          = some { showIn .selling 3 2 with start := 1780 }
      ∧ (takes lobby 0x14 (editFields 0x010 [.num 6 20]) parseShowEdit { noEdit with window := some 20 } ∧ 1799 < 1780 + 0 + 20
          ∧ ({ noEdit with window := some 20 } : ShowEdit).allowed .selling = true)
      ∧ (takes lobby 0x14 [.num 7 95, .num 9 1, .num 6 0] parseShowEdit { noEdit with showNo := 95, band := some 0 }
          ∧ lobby.showAt 95 = none) :=
  ⟨⟨passes_of_meets (by decide +kernel), by decide +kernel⟩, ⟨passes_of_meets (by decide +kernel), by decide +kernel⟩,
    ⟨passes_of_meets (by decide +kernel), by decide +kernel⟩, ⟨passes_of_meets (by decide +kernel), by decide +kernel⟩,
    by decide +kernel, ⟨passes_of_meets (by decide +kernel), by decide +kernel⟩,
    ⟨passes_of_meets (by decide +kernel), by decide +kernel⟩⟩

theorem witness_ShowDelaySetsTheWholeDelay :
    (takes lobby 0x15 [.num 7 0, .num 8 240] parseShowDelay (0, 240) ∧ lobby.showAt 0 = some (showIn .selling 3 2)
        ∧ 100 + 240 + 10 ≤ 1799 ∧ (showIn .selling 3 2).delay ≠ 240)
      ∧ (takes lobby 0x15 [.num 7 0, .num 8 0] parseShowDelay (0, 0) ∧ (showIn .selling 3 2).delay = 0)
      ∧ (takes lobby 0x15 [.num 7 1, .num 8 9] parseShowDelay (1, 9) ∧ lobby.showAt 1 = some (showIn .draft 0 0))
      ∧ (takes lobby 0x15 [.num 7 95, .num 8 9] parseShowDelay (95, 9) ∧ lobby.showAt 95 = none)
      ∧ (let s := { lobby with st := { lobby.st with shows := [(0, { showIn .selling 3 2 with start := 1780 })] } }
         takes s 0x15 [.num 7 0, .num 8 10] parseShowDelay (0, 10)
           ∧ s.showAt 0 = some { showIn .selling 3 2 with start := 1780 } ∧ 1799 < 1780 + 10 + 10) :=
  ⟨⟨passes_of_meets (by decide +kernel), by decide +kernel⟩, ⟨passes_of_meets (by decide +kernel), by decide +kernel⟩,
    ⟨passes_of_meets (by decide +kernel), by decide +kernel⟩, ⟨passes_of_meets (by decide +kernel), by decide +kernel⟩,
    passes_of_meets (by decide +kernel), by decide +kernel⟩

theorem witness_ShowCancelAndDrop :
    (takes (packed lobby) 0x16 [.num 7 0] parseShow 0 ∧ (packed lobby).showAt 0 = some (showIn .selling 3 2)
        ∧ (withHead (packed lobby) 0x16 [.num 7 0]).full ∧ lobby.holdsLaw)
      ∧ (takes lobby 0x16 [.num 7 4] parseShow 4 ∧ lobby.showAt 4 = some (showIn .cancelled 1 0))
      ∧ (takes lobby 0x16 [.num 7 95] parseShow 95 ∧ lobby.showAt 95 = none)
      ∧ (takes lobby 0x17 [.num 7 4] parseShow 4 ∧ lobby.noEndNotice 4)
      ∧ (takes lobby 0x17 [.num 7 5] parseShow 5 ∧ lobby.showAt 5 = some (showIn .running 0 0))
      ∧ (takes lobby 0x17 [.num 7 95] parseShow 95) ∧ takes noticed 0x17 [.num 7 0] parseShow 0
      ∧ takes noticed 0x17 [.num 7 4] parseShow 4 :=
  ⟨⟨passes_of_meets (by decide +kernel), by unfold State.holdsLaw; decide +kernel⟩,
    ⟨passes_of_meets (by decide +kernel), by decide +kernel⟩, ⟨passes_of_meets (by decide +kernel), by decide +kernel⟩,
    ⟨passes_of_meets (by decide +kernel), by decide +kernel⟩, ⟨passes_of_meets (by decide +kernel), by decide +kernel⟩,
    passes_of_meets (by decide +kernel), passes_of_meets (by decide +kernel), passes_of_meets (by decide +kernel)⟩

theorem witness_ShowPhasesMoveForward :
    (showIn .selling 0 0).phase.isOpen = true ∧ Phase.selling.rank < Phase.seating.rank
      ∧ Phase.selling.rank ≤ Phase.selling.rank ∧ (showIn .ended 0 0).phase.isOpen = false
      ∧ (∃ t, exec .runSecond lobby = .next t ∧ lobby.showAt 0 = some (showIn .selling 3 2) ∧ t.showAt 0 = some (showIn .selling 3 2))
      ∧ (∃ t, exec (.powerOn 0) lobby = .next t ∧ t.showAt 0 = none) :=
  ⟨by decide, by decide, by decide, by decide, ⟨_, rfl, by decide +kernel⟩, ⟨_, rfl, by decide +kernel⟩⟩

theorem witness_ShowAndSeatReadsAnswer :
    (takes lobby 0x18 [.num 7 0] parseShow 0 ∧ lobby.noEndNotice 0 ∧ lobby.showAt 0 = some (showIn .selling 3 2))
      ∧ (takes lobby 0x18 [.num 7 95] parseShow 95 ∧ lobby.showAt 95 = none)
      ∧ takes lobby 0x25 [.num 7 0] parseShow 0 ∧ takes lobby 0x25 [.num 7 95] parseShow 95
      ∧ (takes lobby 0x26 [.num 5 0, .num 16 1] parseKey { desk := 0, tag := 1 }
          ∧ lobby.holdAt { desk := 0, tag := 1 } = some liveHold ∧ liveHold.state = .live ∧ lobby.noEndNotice liveHold.showNo)
      ∧ (takes lobby 0x26 [.num 5 0, .num 16 2] parseKey { desk := 0, tag := 2 }
          ∧ lobby.holdAt { desk := 0, tag := 2 } = some lapsedHold ∧ lapsedHold.state = .lapsed .expired 50)
      ∧ (takes lobby 0x26 [.num 5 31, .num 16 65535] parseKey { desk := 31, tag := 65535 }
          ∧ lobby.holdAt { desk := 31, tag := 65535 } = none)
      ∧ takes noticed 0x18 [.num 7 0] parseShow 0 ∧ takes noticed 0x25 [.num 7 0] parseShow 0
      ∧ takes noticed 0x26 [.num 5 0, .num 16 1] parseKey liveHold.key :=
  ⟨⟨passes_of_meets (by decide +kernel), by decide +kernel⟩, ⟨passes_of_meets (by decide +kernel), by decide +kernel⟩,
    passes_of_meets (by decide +kernel), passes_of_meets (by decide +kernel),
    ⟨passes_of_meets (by decide +kernel), by decide +kernel⟩, ⟨passes_of_meets (by decide +kernel), by decide +kernel⟩,
    ⟨passes_of_meets (by decide +kernel), by decide +kernel⟩, passes_of_meets (by decide +kernel),
    passes_of_meets (by decide +kernel), passes_of_meets (by decide +kernel)⟩

theorem witness_AvailabilityFollowsFree :
    ((0 : Nat) = 0) ∧ (1 ≤ 2 ∧ 2 ≤ 2) ∧ (1 ≤ 4 ∧ 2 + 1 < 4) ∧ (1 ≤ 3 ∧ 2 < 3 ∧ 3 ≤ 2 + 1) := by decide

def holdFields (tag n seats seconds : Nat) : List Fld := [.num 5 31, .num 16 tag, .num 7 n, .num 5 seats, .num 10 seconds]

theorem witness_SeatHoldSetsSeatsAside :
    (takes lobby 0x20 (holdFields 3 0 5 0) parseSeatHold { key := { desk := 31, tag := 3 }, showNo := 0, seats := 5, seconds := 0 }
        ∧ lobby.noEndNotice 0 ∧ lobby.showAt 0 = some (showIn .selling 3 2) ∧ (∀ h ∈ lobby.sq.holds, h.key ≠ { desk := 31, tag := 3 })
        ∧ lobby.sq.holds.length < 64 ∧ 5 ≤ 10 - 3 - 2)
      ∧ (takes lobby 0x20 (holdFields 3 0 6 900) parseSeatHold { key := { desk := 31, tag := 3 }, showNo := 0, seats := 6, seconds := 900 }
          ∧ 10 - 3 - 2 < 6)
      ∧ (takes lobby 0x20 [.num 5 0, .num 16 1, .num 7 0, .num 5 1, .num 10 30] parseSeatHold
            { key := { desk := 0, tag := 1 }, showNo := 0, seats := 1, seconds := 30 }
          ∧ ∃ h ∈ lobby.sq.holds, h.key = { desk := 0, tag := 1 })
      ∧ (takes lobby 0x20 (holdFields 3 1 1 0) parseSeatHold { key := { desk := 31, tag := 3 }, showNo := 1, seats := 1, seconds := 0 }
          ∧ lobby.showAt 1 = some (showIn .draft 0 0) ∧ Phase.draft.isOpen = false)
      ∧ (takes lobby 0x20 (holdFields 3 95 1 0) parseSeatHold { key := { desk := 31, tag := 3 }, showNo := 95, seats := 1, seconds := 0 }
          ∧ lobby.showAt 95 = none)
      ∧ (let s := { lobby with sq := { holds := List.replicate 64 lapsedHold } }
         64 ≤ s.sq.holds.length ∧ ∀ h ∈ s.sq.holds, h.key ≠ { desk := 31, tag := 3 })
      ∧ takes noticed 0x20 (holdFields 3 0 1 0) parseSeatHold { key := { desk := 31, tag := 3 }, showNo := 0, seats := 1, seconds := 0 } :=
  ⟨⟨passes_of_meets (by decide +kernel), by decide +kernel⟩, ⟨passes_of_meets (by decide +kernel), by decide +kernel⟩,
    ⟨passes_of_meets (by decide +kernel), liveHold, by decide +kernel⟩, ⟨passes_of_meets (by decide +kernel), by decide +kernel⟩,
    ⟨passes_of_meets (by decide +kernel), by decide +kernel⟩, by decide +kernel, passes_of_meets (by decide +kernel)⟩

theorem witness_SeatConfirmAndReleaseEndAHold :
    takes lobby 0x21 [.num 5 0, .num 16 1] parseKey { desk := 0, tag := 1 }
      ∧ takes lobby 0x22 [.num 5 0, .num 16 1] parseKey { desk := 0, tag := 1 }
      ∧ lobby.holdAt { desk := 0, tag := 1 } = some liveHold ∧ liveHold.state = .live ∧ lobby.noEndNotice liveHold.showNo
      ∧ lobby.showAt liveHold.showNo = some (showIn .selling 3 2) ∧ lobby.holdAt { desk := 0, tag := 9 } = none
      ∧ takes lobby 0x21 [.num 5 0, .num 16 9] parseKey { desk := 0, tag := 9 }
      ∧ takes noticed 0x21 [.num 5 0, .num 16 1] parseKey liveHold.key
      ∧ takes noticed 0x22 [.num 5 0, .num 16 1] parseKey liveHold.key :=
  ⟨passes_of_meets (by decide +kernel), passes_of_meets (by decide +kernel), by decide +kernel, by decide +kernel,
    by decide +kernel, by decide +kernel, by decide +kernel, passes_of_meets (by decide +kernel),
    passes_of_meets (by decide +kernel), passes_of_meets (by decide +kernel)⟩

theorem witness_LapsedHoldIsCollectedOnce :
    lobby.holdAt { desk := 0, tag := 2 } = some lapsedHold ∧ lapsedHold.state = .lapsed .expired 50
      ∧ takes lobby 0x21 [.num 5 0, .num 16 2] parseKey { desk := 0, tag := 2 }
      ∧ takes lobby 0x22 [.num 5 0, .num 16 2] parseKey { desk := 0, tag := 2 } :=
  ⟨by decide +kernel, by decide +kernel, passes_of_meets (by decide +kernel), passes_of_meets (by decide +kernel)⟩

theorem witness_SeatsAreSoldAndRefunded :
    (takes lobby 0x23 [.num 7 0, .num 5 5] parseSeats (0, 5) ∧ lobby.noEndNotice 0
        ∧ lobby.showAt 0 = some (showIn .selling 3 2) ∧ 5 ≤ 10 - 3 - 2)
      ∧ (takes lobby 0x23 [.num 7 0, .num 5 6] parseSeats (0, 6) ∧ 10 - 3 - 2 < 6)
      ∧ (takes lobby 0x23 [.num 7 4, .num 5 1] parseSeats (4, 1) ∧ lobby.showAt 4 = some (showIn .cancelled 1 0)
          ∧ Phase.cancelled.isOpen = false ∧ lobby.noEndNotice 4)
      ∧ takes lobby 0x24 [.num 7 4, .num 5 1] parseSeats (4, 1)
      ∧ (takes lobby 0x24 [.num 7 4, .num 5 20] parseSeats (4, 20) ∧ (showIn .cancelled 1 0).sold < 20)
      ∧ (takes lobby 0x24 [.num 7 2, .num 5 1] parseSeats (2, 1) ∧ lobby.showAt 2 = some (showIn .ended 0 0))
      ∧ (takes lobby 0x24 [.num 7 95, .num 5 1] parseSeats (95, 1) ∧ lobby.showAt 95 = none)
      ∧ takes noticed 0x23 [.num 7 0, .num 5 1] parseSeats (0, 1) ∧ takes noticed 0x24 [.num 7 0, .num 5 1] parseSeats (0, 1) :=
  ⟨⟨passes_of_meets (by decide +kernel), by decide +kernel⟩, ⟨passes_of_meets (by decide +kernel), by decide +kernel⟩,
    ⟨passes_of_meets (by decide +kernel), by decide +kernel⟩, passes_of_meets (by decide +kernel),
    ⟨passes_of_meets (by decide +kernel), by decide +kernel⟩, ⟨passes_of_meets (by decide +kernel), by decide +kernel⟩,
    ⟨passes_of_meets (by decide +kernel), by decide +kernel⟩, passes_of_meets (by decide +kernel),
    passes_of_meets (by decide +kernel)⟩

theorem witness_RowListsFollowShowChanges :
    Tbl.wf lobby.st.shows = true
      ∧ (let b : Board := { Board.initial with rows := 2 }
         (b.rowsFor lobby.st.shows)[0]? = some (some 0) ∧ (b.rowsFor lobby.st.shows)[1]? = some (some 3)
           ∧ Tbl.get lobby.st.shows 5 = some (showIn .running 0 0))
      ∧ (let b : Board := { Board.initial with rows := 16 }
         (b.rowsFor lobby.st.shows)[3]? = some none) := by decide +kernel

theorem witness_BoardOrdersSetRepaintAndRead :
    takes lobby 0x30 [.num 4 11, .num 5 16, .num 24 0xFFFFFF, .num 11 1440, .num 1 1] parseBoardSet
        { port := 11, rows := 16, filter := 0xFFFFFF, window := 1440, cancelledShown := true }
      ∧ (takes lobby 0x31 [.num 4 11] parsePort 11 ∧ (lobby.board 11).rows ≤ 16)
      ∧ takes lobby 0x32 [.num 4 0] parsePort 0 :=
  ⟨passes_of_meets (by decide +kernel), ⟨passes_of_meets (by decide +kernel), by decide +kernel⟩,
    passes_of_meets (by decide +kernel)⟩

def defineFields (n page length : Nat) : List Fld := [.num 10 n, .num 18 page, .num 21 length, .num 4 0]

theorem witness_SegmentDefineReservesPages :
    (takes lobby 0x40 (defineFields 9 262143 64) parseDefine { segment := 9, firstPage := 262143, length := 64, key := 0 }
        ∧ lobby.segAt 9 = none ∧ (orderHead (orderCell 0x40 0 0 (defineFields 9 262143 64))).key = 0
        ∧ 262143 + (64 + 63) / 64 ≤ 262144 ∧ lobby.overlap 262143 1 = none)
      ∧ (takes lobby 0x40 (defineFields 9 262143 65) parseDefine { segment := 9, firstPage := 262143, length := 65, key := 0 }
          ∧ 262144 < 262143 + (65 + 63) / 64)
      ∧ (takes lobby 0x40 (defineFields 9 1 1) parseDefine { segment := 9, firstPage := 1, length := 1, key := 0 }
          ∧ lobby.overlap 1 1 = some 1)
      ∧ (takes lobby 0x40 (defineFields 0 9 1) parseDefine { segment := 0, firstPage := 9, length := 1, key := 0 }
          ∧ lobby.segAt 0 = some (seg .ready 0 10 1 10 0))
      ∧ ((holding (orderCell 0x40 2 0 (defineFields 9 9 1)) lobby).passes 0x40 parseDefine (orderCell 0x40 2 0 (defineFields 9 9 1))
            { segment := 9, firstPage := 9, length := 1, key := 0 }
          ∧ (orderHead (orderCell 0x40 2 0 (defineFields 9 9 1))).key = 2)
      ∧ Tbl.wf lobby.sg.segs = true :=
  ⟨⟨passes_of_meets (by decide +kernel), by decide +kernel⟩, ⟨passes_of_meets (by decide +kernel), by decide +kernel⟩,
    ⟨passes_of_meets (by decide +kernel), by decide +kernel⟩, ⟨passes_of_meets (by decide +kernel), by decide +kernel⟩,
    ⟨passes_of_meets (by decide +kernel), by decide +kernel⟩, by decide +kernel⟩

def filledLobby : State := { lobby with sg := { lobby.sg with segs := [(1, .used (seg .loading 1 2 0 2 0))] } }

theorem witness_SegmentsFinishRetireAndRead :
    (takes filledLobby 0x41 [.num 10 1] parseSegment 1 ∧ filledLobby.segAt 1 = some (seg .loading 1 2 0 2 0))
      ∧ (takes lobby 0x41 [.num 10 1] parseSegment 1 ∧ lobby.segAt 1 = some (seg .loading 1 2 1 1 0) ∧ 1 < 2)
      ∧ (takes lobby 0x41 [.num 10 1023] parseSegment 1023 ∧ lobby.segAt 1023 = none)
      ∧ (takes lobby 0x42 [.num 10 0] parseSegment 0 ∧ lobby.segAt 0 = some (seg .ready 0 10 1 10 0))
      ∧ (takes lobby 0x42 [.num 10 2] parseSegment 2 ∧ lobby.segAt 2 = some (seg .retiring 2 65 0 65 1))
      ∧ takes lobby 0x43 [.num 10 0] parseSegment 0
      ∧ ((holding (orderCell 0x43 2 0 [.num 10 0]) lobby).passes 0x43 parseSegment (orderCell 0x43 2 0 [.num 10 0]) 0
          ∧ (orderHead (orderCell 0x43 2 0 [.num 10 0])).key = 2) :=
  ⟨⟨passes_of_meets (by decide +kernel), by decide +kernel⟩, ⟨passes_of_meets (by decide +kernel), by decide +kernel⟩,
    ⟨passes_of_meets (by decide +kernel), by decide +kernel⟩, ⟨passes_of_meets (by decide +kernel), by decide +kernel⟩,
    ⟨passes_of_meets (by decide +kernel), by decide +kernel⟩, passes_of_meets (by decide +kernel),
    passes_of_meets (by decide +kernel), by decide +kernel⟩

theorem witness_LoadCellsFillASegment :
    (let s := holding (loadCell 1 1 1) lobby
     s.oh.reset = none ∧ s.fri.intake.head? = some (loadCell 1 1 1) ∧ cellKind (loadCell 1 1 1) = 2
       ∧ payloadOk (loadCell 1 1 1) = true)
    ∧ (cellSegment (loadCell 1 1 1) = 1 ∧ cellIndex (loadCell 1 1 1) = 1 ∧ cellKey (loadCell 1 1 1) = 1)
    ∧ (loadCell 1 1 1).length = 80 ∧ lobby.segAt 1 = some (seg .loading 1 2 1 1 0)
    ∧ (cellIndex (loadCell 1 2 0) = 2 ∧ cellIndex (loadCell 1 0 0) = 0 ∧ cellKey (loadCell 1 0 2) = 2)
    ∧ cellKey (loadCell 1 0 16) = 16 ∧ cellSegment (loadCell 1024 0 0) = 1024
    ∧ lobby.segAt (cellSegment (loadCell 0 0 0)) = some (seg .ready 0 10 1 10 0)
    ∧ payloadOk (spoiled (loadCell 1 1 1)) = false
    ∧ ({ lobby with sg := { lobby.sg with segs := [(1, .used (seg .loading 1 9 0 1 0))] } } : State).segAt 1
        = some (seg .loading 1 9 0 1 0) :=
  ⟨⟨rfl, rfl, by decide +kernel, payloadOk_cellOf _ _ _ _ (by decide)⟩, by decide +kernel, by decide +kernel, by decide +kernel,
    by decide +kernel, by decide +kernel, by decide +kernel, by decide +kernel, payloadOk_spoiled _ _ _ _ (by decide),
    by decide +kernel⟩

theorem witness_PinsAreGrantedAndReleased :
    let r := { lobby with oh := { lobby.oh with reset := some { owners := [.timebase], discarded := 0, bouncedKind := none } } }
    r.resetTaken .segmentTable = true ∧ lobby.resetTaken .segmentTable = false ∧ lobby.segAt 9 = none
      ∧ (lobby.segAt 0 = some (seg .ready 0 10 1 10 0) ∧ 3 + 7 ≤ 10 ∧ 10 < 3 + 8)
      ∧ (lobby.segAt 2 = some (seg .retiring 2 65 0 65 1) ∧ (packed lobby).full) := by decide +kernel

theorem witness_ReelTableOrders :
    (takes lobby 0x50 [.num 5 0, .num 5 2, .num 3 0, .num 6 1] parseReelWrite { reel := 0, first := 2, newLength := 1, words := [] }
        ∧ (lobby.reelAt 0).binding = 0 ∧ (lobby.reelAt 0).words.length = 2)
      ∧ takes lobby 0x50 [.num 5 0, .num 5 0, .num 3 0, .num 6 3] parseReelWrite { reel := 0, first := 0, newLength := 3, words := [] }
      ∧ (takes lobby 0x50 ([.num 5 9, .num 5 1, .num 3 1, .num 6 2, .align] ++ Fld.reelWord (word 0 1)) parseReelWrite
            { reel := 9, first := 1, newLength := 2, words := [word 0 1] }
          ∧ (lobby.reelAt 9).words.length < 1)
      ∧ (takes lobby 0x50 [.num 5 1, .num 5 0, .num 3 0, .num 6 0] parseReelWrite { reel := 1, first := 0, newLength := 0, words := [] }
          ∧ 0 < (lobby.reelAt 1).binding)
      ∧ takes lobby 0x51 [.num 5 0] (parseOne 5 31) 0 ∧ takes lobby 0x51 [.num 5 1] (parseOne 5 31) 1
      ∧ takes lobby 0x52 [.num 5 31, .num 5 31] parseReelRead (31, 31) :=
  ⟨⟨passes_of_meets (by decide +kernel), by decide +kernel⟩, passes_of_meets (by decide +kernel),
    ⟨passes_of_meets (by decide +kernel), by decide +kernel⟩, ⟨passes_of_meets (by decide +kernel), by decide +kernel⟩,
    passes_of_meets (by decide +kernel), passes_of_meets (by decide +kernel), passes_of_meets (by decide +kernel)⟩

/-- Reel 0 of the lobby with its words gated by show `n`. -/
def gated (n : Nat) : State :=
  { lobby with rl := { reels := [(0, { words := [{ word 0 9 with gate := some n }, { word 0 1 with gate := some n }], binding := 0 })] } }

/-- P0 plays a run with 8 cells of its word left, its slot empty. -/
def prefetching (r : Run) : State := lobby.setCtx 0 (.running { r with cur := word 0 8, residual := 8, slot := .empty })

/-- Show 0 may be gated on, show 2 may not; the boundary crossed, the last pass, and no word at all. Prefetches that end in each
of their ways. -/
theorem witness_SearchFindsTheNextEligibleWord :
    (runAt 0 9 .empty).curIndex < (lobby.reelAt 0).words.length
      ∧ ((gated 0).reelAt 0).words[1]? = some { word 0 1 with gate := some 0 }
      ∧ (gated 0).showAt 0 = some (showIn .selling 3 2) ∧ (showIn .selling 3 2).avail ≠ .full
      ∧ (gated 2).showAt 2 = some (showIn .ended 0 0)
      ∧ (runAt 1 1 .empty).repeatLeft = 2 ∧ ({ runAt 1 1 .empty with repeatLeft := 1 } : Run).repeatLeft = 1
      ∧ 0 + ((gated 0).reelAt 0).words.length - 2 < ((gated 0).reelAt 0).words.length
      ∧ (lobby.run? 0 = none ∧ 8 < (runAt 0 9 .empty).residual ∧ (runAt 0 8 (.marker .ended)).slot ≠ .empty)
      ∧ ((prefetching (runAt 0 8 .empty)).searchNext (runAt 0 8 .empty) = .word 1 (word 0 1) false
          ∧ (prefetching (runAt 0 8 .empty)).pinAnswer 0 0 0 1 = .granted
          ∧ (prefetching (runAt 0 8 .empty)).pinAnswer 0 2 0 1 = .keyMismatch
          ∧ (unfreed (prefetching (runAt 0 8 .empty))).pinAnswer 0 0 0 1 = .notReady)
      ∧ (prefetching { runAt 1 8 .empty with repeatLeft := 1 }).searchNext { runAt 1 8 .empty with repeatLeft := 1 }
          = .marker .ended := by unfold State.run?; decide +kernel

/-- The order on P0, its reel and repeats. -/
def startFields (reel : Nat) : List Fld := [.num 4 0, .num 5 reel, .num 4 0, .num 8 255, .num 16 9]
def startOrder (reel : Nat) : StartOrder := { port := 0, reel := reel, key := 0, repeats := 255, tag := 9 }

theorem witness_ReelStartBeginsARun :
    (takes lobby 0x53 (startFields 0) parseReelStart (startOrder 0) ∧ (lobby.port 0).state = .ready ∧ lobby.ctx 0 = .idle
        ∧ (lobby.reelAt 0).words[0]? = some (word 0 9) ∧ (word 0 9).skip = false ∧ (word 0 9).gate = none
        ∧ lobby.pinAnswer 0 0 0 9 = .granted ∧ lobby.pinAnswer 0 0 0 11 = .notReady
        ∧ ({ lobby with sg := { lobby.sg with segs := [(0, .used (seg .ready 0 10 2 10 0))] } } : State).pinAnswer 0 1 0 9
            = .keyMismatch)
      ∧ (takes lobby 0x53 (startFields 5) parseReelStart (startOrder 5) ∧ (lobby.reelAt 5).words = [])
      ∧ ((gated 2).reelAt 0).words ≠ [] ∧ (word 0 8).count ≤ 8
      ∧ (lobby.setCtx 0 (.running (runAt 0 9 .empty))).ctx 0 = .running (runAt 0 9 .empty)
      ∧ (lobby.setCtx 0 (.statusPending endRecord)).ctx 0 = .statusPending endRecord
      ∧ ((lobby.setPort 0 (line .off)).port 0).state = .off
      ∧ ((lobby.port 0).settings.mode = .live ∧ (lobby.slot 0).takeover = false)
      ∧ (lobby.ctx 3 = .idle ∧ (lobby.port 3).state = .linking) :=
  ⟨⟨passes_of_meets (by decide +kernel), by decide +kernel⟩, ⟨passes_of_meets (by decide +kernel), by decide +kernel⟩,
    by decide +kernel⟩

theorem witness_ReelHaltAndTest :
    takes (packed lobby) 0x54 [.num 4 0] parsePort 0 ∧ takes lobby 0x55 [.num 4 0] parsePort 0
      ∧ (lobby.port 0).state = .ready ∧ lobby.ctx 0 = .idle ∧ (lobby.port 0).nextPlace = none ∧ (lobby.port 0).sendingPlace = none
      ∧ (lobby.setCtx 0 (.running { runAt 0 9 .empty with halting := true })).ctx 0
          = .running { runAt 0 9 .empty with halting := true }
      ∧ (withHead (packed lobby) 0x54 [.num 4 0]).full
      ∧ ((lobby.setCtx 0 (.statusPending endRecord)).ctx 0 = .statusPending endRecord)
      ∧ ((lobby.setPort 0 { line .ready with nextPlace := some picture }).port 0).nextPlace = some picture
      ∧ picture.fromContext = true :=
  ⟨passes_of_meets (by decide +kernel), passes_of_meets (by decide +kernel), by decide +kernel, by decide +kernel,
    by decide +kernel, by decide +kernel, by decide +kernel, by decide +kernel, by decide +kernel, by simp, rfl⟩

/-- P0 READY with an empty next place, its run at the last cell of a word. -/
def lastCell (slot : Prefetch) : State := packed (lobby.setCtx 0 (.running (runAt 0 1 slot)))

theorem witness_WordEndActsOnThePrefetchSlot :
    let s := lastCell (.good 1 (word 0 1) false)
    s.ctx 0 = .running (runAt 0 1 (.good 1 (word 0 1) false)) ∧ (runAt 0 1 .empty).residual = 1
      ∧ (runAt 0 1 (.good 1 (word 0 1) false)).slot ≠ .empty ∧ (runAt 0 1 (.marker .ended)).slot ≠ .empty
      ∧ (runAt 0 1 (.deferred 1 .keyMismatch)).slot ≠ .empty ∧ (word 0 1).count ≤ 8 ∧ s.full ∧ s.oh.reset = none ∧ (s.port 0).state = .ready
      ∧ (s.port 0).nextPlace = none ∧ (s.port 0).darkOwed = false ∧ (s.port 0).settings.mode = .live
      ∧ (s.slot 0).takeover = false ∧ (s.slot 0).clearOwed = false ∧ (s.slot 0).textOwed = false ∧ (s.slot 0).cutOwed = false
      ∧ (s.board 0).pendingRows = 0
      ∧ (let k : Shown := { key := { desk := 0, tag := 5 }, form := .text }
         let u := (s.setSlot 0 { Slot.initial with shown := some k }).setBoard 0
           { Board.initial with rows := 16, pendingRows := 0x8000 }
         u.ctx 0 = s.ctx 0 ∧ u.full ∧ u.oh.reset = none ∧ (u.port 0).state = .ready ∧ (u.slot 0).takeover = false
           ∧ (u.slot 0).clearOwed = false ∧ (u.slot 0).textOwed = false ∧ (u.slot 0).cutOwed = false
           ∧ (u.port 0).spacing < (u.port 0).settings.spacing) := by decide +kernel

/-- P2 LINKING with panel mode `m`, so DARK under the notice of priority 2, or LIVE. -/
def darkAt (m : PanelMode) : State :=
  lobby.setPort 2 { line .linking with settings := { PortSettings.initial with mode := m } }

/-- A TEXT notice for P2, and a TAKEOVER of segment 0. -/
def postText : List Fld :=
  [.num 5 31, .num 16 9, .num 2 3, .num 1 0, .num 12 0x200, .num 12 3600, .num 6 1, .num 8 0x42, .num 1 0]
def postTextOrder : PostOrder :=
  { key := { desk := 31, tag := 9 }, priority := 3, body := .text [0x42], targets := 4, duration := 3600, binding := none }
def postTakeover (n : Nat) : List Fld :=
  [.num 5 31, .num 16 9, .num 2 0, .num 1 1, .num 12 1, .num 12 0, .num 10 n, .num 1 1, .num 7 0, .num 2 1, .num 8 240]
def postCancel : List Fld :=
  [.num 5 31, .num 16 9, .num 2 0, .num 1 0, .num 12 1, .num 12 0, .num 6 1, .num 8 0x42, .num 1 1, .num 7 0, .num 2 2]
def postCancelOrder : PostOrder :=
  { key := { desk := 31, tag := 9 }, priority := 0, body := .text [0x42], targets := 0x800, duration := 0,
    binding := some { showNo := 0, effect := .cancel } }
def postTakeoverOrder (n : Nat) : PostOrder :=
  { key := { desk := 31, tag := 9 }, priority := 0, body := .takeover n 0, targets := 0x800, duration := 0,
    binding := some { showNo := 0, effect := .delay 240 } }

theorem witness_NoticePostQueuesANotice :
    (takes lobby 0x60 postText parsePost postTextOrder ∧ lobby.noticeAt postTextOrder.key = none ∧ lobby.nq.notices.length < 24
        ∧ lobby.effectRefusal postTextOrder.binding = none ∧ lobby.noticesLaw)
      ∧ (takes lobby 0x60 (postTakeover 0) parsePost (postTakeoverOrder 0)
          ∧ lobby.effectRefusal (postTakeoverOrder 0).binding = none ∧ lobby.pinAnswer 0 0 0 (lobby.segLength 0) = .granted
          ∧ lobby.showAt 0 = some (showIn .selling 3 2))
      ∧ (takes lobby 0x60 (postTakeover 1) parsePost (postTakeoverOrder 1)
          ∧ lobby.pinAnswer 1 0 0 (lobby.segLength 1) = .notReady)
      ∧ (lobby.noticeAt { desk := 0, tag := 5 } = some (notice 5 2 4 .waiting)
          ∧ lobby.effectRefusal (some { showNo := 95, effect := .cancel }) = some .noSuchShow
          ∧ lobby.effectRefusal (some { showNo := 0, effect := .cancel }) = none
          ∧ 24 ≤ ({ lobby with nq := { lobby.nq with notices := List.replicate 24 (notice 5 2 4 .waiting) } } : State).nq.notices.length)
      ∧ (withHead (packed lobby) 0x60 postText).full
      ∧ (takes (packed (darkAt .dark)) 0x60 postText parsePost postTextOrder ∧ PortSet.has postTextOrder.targets 2 = true
          ∧ ((darkAt .dark).port 2).settings.mode = .dark ∧ ((darkAt .dark).port 2).settings.wakeLevel ≤ 3
          ∧ (darkAt .dark).effectRefusal postTextOrder.binding = none)
      ∧ ((∀ p, lobby.run? p = none) ∧ lobby.noticeAt (postTakeoverOrder 0).key = none)
      ∧ (takes lobby 0x60 postCancel parsePost postCancelOrder ∧ lobby.effectRefusal postCancelOrder.binding = none
          ∧ lobby.holdsLaw) :=
  ⟨⟨passes_of_meets (by decide +kernel), by unfold State.noticesLaw; decide +kernel⟩,
    ⟨passes_of_meets (by decide +kernel), by decide +kernel⟩, ⟨passes_of_meets (by decide +kernel), by decide +kernel⟩,
    by decide +kernel, by decide +kernel, ⟨passes_of_meets (by decide +kernel), by decide +kernel⟩,
    by unfold State.run?; decide +kernel, passes_of_meets (by decide +kernel), by unfold State.holdsLaw; decide +kernel⟩

theorem witness_NoticesAreWithdrawnAndRead :
    (takes lobby 0x61 [.num 5 0, .num 16 5] parseKey { desk := 0, tag := 5 }
        ∧ lobby.noticeAt { desk := 0, tag := 5 } = some (notice 5 2 4 .waiting) ∧ (notice 5 2 4 .waiting).state.isOpen = true
        ∧ (withHead (packed lobby) 0x61 [.num 5 0, .num 16 5]).full)
      ∧ (takes lobby 0x61 [.num 5 0, .num 16 6] parseKey { desk := 0, tag := 6 }
          ∧ lobby.noticeAt { desk := 0, tag := 6 } = some { notice 6 0 0 (.closing 80) with claimed := true })
      ∧ (takes lobby 0x61 [.num 5 31, .num 16 0] parseKey { desk := 31, tag := 0 } ∧ lobby.noticeAt { desk := 31, tag := 0 } = none)
      ∧ takes lobby 0x62 [.num 5 0, .num 16 5] parseKey { desk := 0, tag := 5 } :=
  ⟨⟨passes_of_meets (by decide +kernel), by decide +kernel⟩, ⟨passes_of_meets (by decide +kernel), by decide +kernel⟩,
    ⟨passes_of_meets (by decide +kernel), by decide +kernel⟩, passes_of_meets (by decide +kernel)⟩

/-- A TAKEOVER of segment 0 for P0, which plays a run. -/
def taking (halting : Bool) : State :=
  ({ lobby with nq := { lobby.nq with notices := [{ notice 5 2 1 .waiting with body := .takeover 0 0 }] } } : State).setCtx 0
    (.running { runAt 0 9 .empty with halting := halting })

/-- The TAKEOVER of P0's slot has left the table, and its SUSPENDED run may go on. -/
def leaving : State :=
  (({ lobby with nq := { lobby.nq with notices := [] } } : State).setSlot 0
    { Slot.initial with shown := some { key := { desk := 0, tag := 5 }, form := .takeover } }).setCtx 0
    (.running { runAt 0 9 .empty with suspended := true, residual := 4 })

theorem witness_SlotChangeOwesItsCells :
    ((leaving.selected 0).map Notice.key ≠ (leaving.slot 0).shown.map Shown.key ∧ (leaving.slot 0).takeover = true
      ∧ ((State.selectPort 0 leaving).slot 0).takeover = false
      ∧ leaving.run? 0 = some { runAt 0 9 .empty with suspended := true, residual := 4 }
      ∧ (leaving.port 0).settings.mode = .live ∧ (leaving.port 0).state = .ready)
    ∧     (let s := lobby.setPort 2 (line .ready)
     (s.selected 2).map Notice.key ≠ (s.slot 2).shown.map Shown.key ∧ s.selected 2 = some (notice 5 2 4 .waiting)
       ∧ s.noticesLaw ∧ (∀ p, s.run? p = none))
    ∧ (∀ halting, ((taking halting).selected 0).map Notice.key ≠ ((taking halting).slot 0).shown.map Shown.key
        ∧ ((taking halting).selected 0).map Notice.form = some .takeover ∧ ((taking halting).slot 0).takeover = false
        ∧ (State.selectPort 0 (taking halting)).slot 0 = { Slot.initial with
            shown := some { key := { desk := 0, tag := 5 }, form := .takeover }, cutOwed := true }
        ∧ (taking halting).run? 0 = some { runAt 0 9 .empty with halting := halting } ∧ ¬ (taking halting).full
        ∧ (packed (taking halting)).full) := by
  unfold State.noticesLaw State.run?; decide +kernel

/-- A run with a waiting mark claim plays, or halts, on port `p`. -/
def ending (p : Port) (halting : Bool) : State := lobby.setCtx p (.running { markedRun with halting := halting })

theorem witness_PortsEnableDisableAndReset :
    (takes (packed lobby) 0x70 [.num 4 2] parsePort 2 ∧ (lobby.port 2).state = .off
        ∧ (withHead (packed lobby) 0x70 [.num 4 2]).full)
      ∧ (takes lobby 0x70 [.num 4 0] parsePort 0 ∧ (lobby.port 0).state ≠ .off)
      ∧ (takes lobby 0x71 [.num 4 0] parsePort 0 ∧ (lobby.port 0).state ≠ .draining)
      ∧ (takes lobby 0x71 [.num 4 5] parsePort 5 ∧ (lobby.port 5).state = .draining)
      ∧ takes lobby 0x72 [.num 4 1] parsePort 1 ∧ takes lobby 0x72 [.num 4 11] parsePort 11
      ∧ (∀ halting, takes (ending 1 halting) 0x71 [.num 4 1] parsePort 1 ∧ takes (ending 1 halting) 0x72 [.num 4 1] parsePort 1
          ∧ (ending 1 halting).run? 1 = some { markedRun with halting := halting } ∧ ((ending 1 halting).port 1).state = .held) :=
  ⟨⟨passes_of_meets (by decide +kernel), by decide +kernel⟩, ⟨passes_of_meets (by decide +kernel), by decide +kernel⟩,
    ⟨passes_of_meets (by decide +kernel), by decide +kernel⟩, ⟨passes_of_meets (by decide +kernel), by decide +kernel⟩,
    passes_of_meets (by decide +kernel), passes_of_meets (by decide +kernel), by
      intro halting
      exact ⟨passes_of_meets (by cases halting <;> decide +kernel), passes_of_meets (by cases halting <;> decide +kernel),
        by unfold State.run?; cases halting <;> decide +kernel⟩⟩

def noPortEdit (p : Port) : PortEdit :=
  { port := p, mode := none, gap := none, spacing := none, holdTimeout := none, keepAlive := none, slipCheck := none,
    wakeLevel := none }
theorem witness_PortSetWritesTheNamedSettings :
    (takes (darkAt .live) 0x73 [.num 4 2, .num 7 0x40, .num 2 2] parsePortSet { noPortEdit 2 with mode := some .dark }
        ∧ ((darkAt .live).port 2).settings.mode = .live
        ∧ (darkAt .live).nq.notices.find? (fun n => n.state.isOpen && PortSet.has n.targets 2 && decide (2 ≤ n.priority))
            = some (notice 5 2 4 .waiting))
      ∧ (takes (darkAt .live) 0x73 [.num 4 2, .num 7 0x41, .num 2 2, .num 2 3] parsePortSet
            { noPortEdit 2 with mode := some .dark, wakeLevel := some 3 }
          ∧ ∀ n ∈ lobby.nq.notices, (n.state.isOpen && PortSet.has n.targets 2 && decide (3 ≤ n.priority)) = false)
      ∧ (takes (darkAt .dark) 0x73 [.num 4 2, .num 7 0x40, .num 2 0] parsePortSet { noPortEdit 2 with mode := some .live }
          ∧ ((darkAt .dark).port 2).settings.mode = .dark ∧ ((darkAt .dark).port 2).holdTimer = false)
      ∧ (takes lobby 0x73 [.num 4 1, .num 7 0x08, .num 3 0] parsePortSet { noPortEdit 1 with holdTimeout := some 0 }
          ∧ (lobby.port 1).holdTimer = true ∧ (lobby.port 1).state = .held ∧ 25 * 2 ^ 0 ≤ 25)
      ∧ (takes lobby 0x73 [.num 4 0, .num 7 0x04, .num 3 7] parsePortSet { noPortEdit 0 with keepAlive := some 7 }
          ∧ (lobby.port 0).keepAlive = .running ∧ 3199 < 25 * 2 ^ 7 ∧ 25 * 2 ^ 7 ≤ 3200) :=
  ⟨⟨passes_of_meets (by decide +kernel), by decide +kernel⟩, ⟨passes_of_meets (by decide +kernel), by decide +kernel⟩,
    ⟨passes_of_meets (by decide +kernel), by decide +kernel⟩, ⟨passes_of_meets (by decide +kernel), by decide +kernel⟩,
    passes_of_meets (by decide +kernel), by decide +kernel⟩

/-- P0 READY with the slot `x`, mode `m`, and pending rows `b`. -/
def readyWith (x : Slot) (m : PanelMode) (b : RowSet) : State :=
  ((lobby.setSlot 0 x).setPort 0 { line .ready with settings := { PortSettings.initial with mode := m } }).setBoard 0
    { Board.initial with rows := 16, pendingRows := b }

theorem witness_ArbiterTakesTheFirstSource :
    ((lobby.port 1).state ≠ .ready)
      ∧ (let s := lobby.setPort 0 { line .ready with darkOwed := true }
         (s.port 0).state = .ready ∧ (s.port 0).nextPlace = none ∧ (s.port 0).darkOwed = true)
      ∧ (let s := readyWith Slot.initial .dark 0
         (s.port 0).settings.mode = .dark ∧ (s.port 0).darkOwed = false ∧ (s.port 0).keepAlive ≠ .ranOut)
      ∧ ((readyWith { Slot.initial with clearOwed := true } .live 0).slot 0).clearOwed = true
      ∧ (let s := readyWith { Slot.initial with shown := some { key := { desk := 0, tag := 5 }, form := .text }, textOwed := true }
            .live 0
         (s.slot 0).clearOwed = false ∧ (s.slot 0).textOwed = true
           ∧ (s.slot 0).shown = some { key := { desk := 0, tag := 5 }, form := .text }
           ∧ s.noticeAt { desk := 0, tag := 5 } = some (notice 5 2 4 .waiting) ∧ (notice 5 2 4 .waiting).body = .text [0x41])
      ∧ (let s := readyWith { Slot.initial with cutOwed := true } .live 0
         (s.slot 0).textOwed = false ∧ (s.slot 0).cutOwed = true)
      ∧ (let s := readyWith Slot.initial .live 0x8000
         s.streamSource 0 = none ∧ 15 < (s.board 0).rows ∧ (s.board 0).pendingRows.getLsbD 15 = true
           ∧ ∀ j, j < 15 → (s.board 0).pendingRows.getLsbD j = false)
      ∧ (let s := (readyWith Slot.initial .live 0).setPort 0 { line .ready with live := [zeroPayload] }
         s.streamSource 0 = some (.live zeroPayload []) ∧ (s.board 0).pendingRows = 0 ∧ (s.port 0).spacing < 3)
      ∧ (let s := readyWith Slot.initial .quiet 0
         s.streamSource 0 = none ∧ (s.port 0).settings.mode ≠ .dark) := by decide +kernel

/-- P0's board with show 0 in its first row, and in its second a show whose slot has been emptied. -/
def boarded : State := lobby.setBoard 0 { Board.initial with rows := 3, rowList := [some 0, some 95, none] }

theorem witness_StreamSourceGivesItsNextCell :
    ((boarded.board 0).rowList[0]? = some (some 0) ∧ boarded.showAt 0 = some (showIn .selling 3 2)
      ∧ (boarded.board 0).rowList[1]? = some (some 95) ∧ boarded.showAt 95 = none
      ∧ (boarded.board 0).rowList[2]? = some none ∧ (List.replicate 48 (0x41 : Byte)).length ≤ 48)
    ∧     (let k : Shown := { key := { desk := 0, tag := 7 }, form := .takeover }
     let n : Notice := { notice 7 1 1 .shown with body := .takeover 0 0 }
     let s := { lobby with nq := { notices := [n], slots := lobby.nq.slots.set 0 { Slot.initial with shown := some k, position := 9 } } }
     (s.slot 0).shown = some k ∧ k.form = .takeover ∧ s.noticeAt k.key = some n ∧ n.body = .takeover 0 0
       ∧ (s.port 0).settings.mode ≠ .dark ∧ (s.slot 0).cutOwed = false ∧ (s.slot 0).repeatCut = false ∧ s.segLength 0 ≤ 9 + 1)
    ∧ (let s := lobby.setCtx 0 (.running (runAt 0 2 (.marker .ended)))
       (s.slot 0).takeover = false ∧ (s.port 0).settings.mode = .live ∧ s.ctx 0 = .running (runAt 0 2 (.marker .ended))
         ∧ (runAt 0 2 (.marker .ended)).cutDue = false ∧ 2 ≤ (runAt 0 2 (.marker .ended)).residual
         ∧ ({ runAt 0 2 .empty with cutDue := true } : Run).cutDue = true)
    ∧ (let s := lobby.setPort 0 { line .ready with live := [zeroPayload] }
       s.ctx 0 = .idle ∧ (s.port 0).live = [zeroPayload] ∧ (s.port 0).liveGap = true)
    ∧ (lobby.ctx 0 = .idle ∧ (lobby.port 0).live = [])
    ∧ (lobby.segAt 0 = some (seg .ready 0 10 1 10 0)
        ∧ Memory.read [((0 * 64 + 9) * 64 + 63, (5 : Byte))] ((0 * 64 + 9) * 64 + 63) = some 5) := by decide +kernel

theorem witness_CellsCrossTheLine :
    (lobby.port 0).nextPlace = none
      ∧ (let s := lobby.setPort 0 { line .ready with nextPlace := some picture }
         (s.port 0).nextPlace = some picture ∧ (s.port 0).sendingPlace = none ∧ (s.port 0).started = false
           ∧ (s.port 0).hold = false ∧ (s.port 0).boundaryHold = false)
      ∧ ((lobby.setPort 3 { line .linking with nextPlace := some (link 3) }).port 3).nextPlace
          = some { cell := PanelCell.bytes lobby.fri.address 3 .link, fromContext := false }
      ∧ ((lobby.port 3).nextPlace.map Staged.isLink = some true
          ∧ (lobby.port 3).sendingPlace = none ∧ (lobby.port 3).state = .linking ∧ (lobby.port 3).linkSent = true
          ∧ (lobby.port 3).linkCount + 1 = 4 ∧ (packed lobby).full ∧ lobby.selectionLaw)
      ∧ ((lobby.port 5).sendingPlace.map Staged.fromContext = some false ∧ (lobby.port 5).state = .draining ∧ (lobby.port 5).nextPlace = none)
      ∧ (let s := (lobby.setCtx 0 (.running { runAt 0 9 .empty with halting := true })).setPort 0
            { line .ready with sendingPlace := some picture }
         (s.port 0).sendingPlace = some picture ∧ picture.fromContext = true
           ∧ s.ctx 0 = .running { runAt 0 9 .empty with halting := true } ∧ (s.port 0).nextPlace = none) :=
  ⟨by decide +kernel, ⟨by simp, by decide +kernel, by decide +kernel, by decide +kernel, by decide +kernel⟩,
    by simp; rfl, ⟨by decide +kernel, by decide +kernel, by decide +kernel, by decide +kernel, by decide +kernel, by decide +kernel, by unfold State.selectionLaw State.noticesLaw; decide +kernel⟩,
    by decide +kernel, ⟨by simp, rfl, by decide +kernel, by decide +kernel⟩⟩

theorem witness_HoldAndSlipActOnTheState :
    lobby.selectionLaw ∧ (lobby.port 0).sendingPlace = none
      ∧ (let s := lobby.setPort 0 { line .ready with sendingPlace := some picture, slipArmed := true }
         (s.port 0).sendingPlace ≠ none ∧ (s.port 0).state = .ready ∧ (s.port 0).slipArmed = true)
      ∧ ((lobby.port 5).sendingPlace ≠ none ∧ (lobby.port 5).state = .draining ∧ (lobby.port 5).slipArmed = false)
      ∧ (let s := lobby.setPort 3 { line .linking with sendingPlace := some (link 3) }
         (s.port 3).sendingPlace ≠ none ∧ (s.port 3).state = .linking) := by
  unfold State.selectionLaw State.noticesLaw; decide +kernel

theorem witness_PortTimersRunOut :
    ((lobby.port 1).holdTimer = true ∧ 25 * 2 ^ (lobby.port 1).settings.holdTimeout ≤ 200 ∧ (lobby.port 1).state = .held
        ∧ 199 < 25 * 2 ^ (lobby.port 1).settings.holdTimeout)
      ∧ (let s := lobby.setPort 5 { line .draining with holdTimer := true }
         (s.port 5).holdTimer = true ∧ (s.port 5).state = .draining)
      ∧ ((lobby.port 3).state = .linking ∧ (lobby.port 3).linkTimer = true ∧ 2000 ≤ 2000 ∧ 1999 < 2000)
      ∧ ((lobby.port 4).state = .stalled ∧ (lobby.port 4).retryTimer = true ∧ 8000 ≤ 8000 ∧ 7999 < 8000)
      ∧ ((lobby.port 0).state = .ready ∧ (lobby.port 0).keepAlive = .running
          ∧ 25 * 2 ^ (lobby.port 0).settings.keepAlive ≤ 400 ∧ 399 < 25 * 2 ^ (lobby.port 0).settings.keepAlive)
      ∧ (packed lobby).full
      ∧ (∀ halting, (ending 1 halting).run? 1 = some { markedRun with halting := halting }
          ∧ ((ending 1 halting).port 1).state = .held ∧ ((ending 1 halting).port 1).holdTimer = true
          ∧ (packed (ending 1 halting)).full ∧ (ending 1 halting).resetTaken .reelTable = false
          ∧ (ending 1 halting).resetTaken .segmentTable = false)
      ∧ lobby.run? 1 = none
      ∧ (PortEvent.woken { desk := 0, tag := 1 } 2 5).kind ≠ (PortEvent.restored 1 2 3).kind := by unfold State.run?; decide +kernel

theorem headerOk_cellOf {kind dest : Nat} {extra p : List Byte} (h : extra.length = 8) (k : kind ≤ 5) (d : dest ≤ 31) :
    headerOk (cellOf kind dest extra p) = true := by
  obtain ⟨a, b, c, e, f, g, i, j, rfl⟩ := eight extra h
  have w := (checkWord ([BitVec.ofNat 8 kind, 0, BitVec.ofNat 8 dest, 30] ++ [a, b, c, e, f, g, i, j]
      ++ [BitVec.ofNat 8 ((checkWord p).toNat / 256), BitVec.ofNat 8 (checkWord p).toNat])).isLt
  have hk : kind % 256 = kind := Nat.mod_eq_of_lt (by omega)
  have hd : dest % 256 = dest := Nat.mod_eq_of_lt (by omega)
  simp [headerOk, cellKind, cellDest, cellSource, cellOriginal, kindBounced, byteAt, cellOf, sealCell, bytesOfNat_two, hk, hd] at w ⊢
  omega

/-- The header of that cell with its kind raised past 6 fails its check. -/
theorem headerOk_bad (c : List Byte) (h : 6 < cellKind c) : headerOk c = false := by
  simp only [headerOk]
  simp
  omega

def orderTo (dest : Nat) : List Byte := cellOf 1 dest noExtra (payloadOf [.num 8 0x09])

/-- The Panel Ports have taken a UNIT RESET, the FRI has not: P0 is LINKING, and stands in the entry of channel 0. -/
def relinked : State :=
  resetting [.feedRing] ({ lobby with fri := { lobby.fri with routes := [(0, 0x001)] } }.setPort 0 (line .linking))

theorem witness_ArrivingCellsAreHandledByCase :
    (orderTo 0).length = 80 ∧ headerOk (orderTo 0) = true ∧ lobby.fri.feed = .up ∧ lobby.fri.address.toNat < 30
      ∧ (cellKind (orderTo 0) = 1 ∧ cellDest (orderTo 0) = 0 ∧ cellDest (orderTo 31) = 31 ∧ cellDest (orderTo 9) = 9)
      ∧ (lobby.fri.intake.length < 2 ∧ lobby.fri.queue.length + lobby.fri.reservations < 16)
      ∧ ¬ ((packed lobby).fri.queue.length + (packed lobby).fri.reservations < 16)
      ∧ (headerOk (cellOf 7 0 noExtra zeroPayload) = false ∧ (cellOf 7 0 noExtra zeroPayload).length = 80)
      ∧ (headerOk (cellOf 0 31 noExtra zeroPayload) = true ∧ cellKind (cellOf 0 31 noExtra zeroPayload) = 0)
      ∧ (headerOk (cellOf 3 0 noExtra zeroPayload) = true ∧ cellKind (cellOf 3 0 noExtra zeroPayload) = 3
          ∧ cellChannel (cellOf 3 0 noExtra zeroPayload) = 0 ∧ cellChannel (cellOf 3 0 (64 :: noExtra.drop 1) zeroPayload) = 64)
      ∧ (headerOk (cellOf 5 0 noExtra zeroPayload) = true ∧ 4 ≤ cellKind (cellOf 5 0 noExtra zeroPayload))
      ∧ (let s := packed { lobby with fri := { lobby.fri with feed := .lost, lossTimer := false, lossTime := some 60 } }
         s.fri.feed = .lost ∧ s.fri.lossTime = some 60 ∧ s.full)
      ∧ (let s := { unfreed lobby with fri := { lobby.fri with feed := .lost, lossTimer := false, lossTime := some 60 } }
         s.fri.feed = .lost ∧ s.fri.lossTime = some 60 ∧ ¬ s.full ∧ s.oh.reset = none ∧ s.firstClaim = none)
      ∧ 30 ≤ ({ lobby with fri := { lobby.fri with address := 30 } } : State).fri.address.toNat
      ∧ (let s := { lobby with fri := { lobby.fri with routes := [(0, 0x001)] } }
         PortSet.has (s.routeAt 0) 0 = true ∧ PortSet.has (s.routeAt 0) 1 = false ∧ (s.port 0).state = .ready
           ∧ (s.port 0).settings.mode = .live ∧ s.ctx 0 = .idle ∧ (s.slot 0).takeover = false ∧ (s.port 0).live.length < 4)
      ∧ (relinked.resetTaken .panelPorts = true ∧ PortSet.has (relinked.routeAt 0) 0 = true ∧ (relinked.port 0).state = .linking
          ∧ (relinked.port 0).live.length < 4 ∧ lobby.resetTaken .panelPorts = false) :=
  ⟨by decide +kernel, headerOk_cellOf rfl (by decide) (by decide), by decide +kernel, by decide +kernel, by decide +kernel,
    by decide +kernel, by decide +kernel, ⟨headerOk_bad _ (by decide +kernel), by decide +kernel⟩,
    ⟨headerOk_cellOf rfl (by decide) (by decide), by decide +kernel⟩,
    ⟨headerOk_cellOf rfl (by decide) (by decide), by decide +kernel⟩,
    ⟨headerOk_cellOf rfl (by decide) (by decide), by decide +kernel⟩, by decide +kernel, by decide +kernel, by decide +kernel,
    by decide +kernel, by decide +kernel⟩

/-- A reply and a report whose fields are all at the top of their ranges. -/
def fullReply : Reply :=
  { code := 0x79, tag := 65535, desk := 31, unchecked := true, outcome := .unavailable, reason := .clockUnset,
    placed := 4294967295, body := [] }
def fullReport : Report := { kind := .dayRolled, built := 4294967295, body := [] }

theorem witness_FreeSlotsCarryTheOldestCell :
    let s := { lobby with fri := { lobby.fri with feed := .lost } }
    lobby.fri.feed = .up ∧ lobby.fri.lossTimer = true ∧ s.fri.feed = .lost ∧ s.fri.bounced = [] ∧ s.fri.queue = []
      ∧ (packed s).fri.queue ≠ [] ∧ ({ s with fri := { s.fri with bounced := [zeroPayload] } } : State).fri.bounced = [zeroPayload]
      ∧ (fullReply.code < 256 ∧ fullReply.tag < 65536 ∧ fullReply.desk < 256 ∧ fullReply.placed < 4294967296)
      ∧ fullReport.built < 4294967296 ∧ (loadCell 1 1 1).length = 80 := by
  decide +kernel

theorem witness_RoutesAreSetAndPortsRead :
    (takes (routed 0) 0x78 [.num 6 63, .num 12 0x801] parseRouteSet (63, 0x801)
        ∧ ∀ p, PortSet.has 0x801 p = true → ((routed 0).fri.routes.any fun e => decide (e.1 ≠ 63) && PortSet.has e.2 p) = false)
      ∧ (PortSet.has 0x801 0 = true ∧ ((routed 1).fri.routes.any fun e => decide (e.1 ≠ 63) && PortSet.has e.2 0) = true)
      ∧ takes (routed 1) 0x78 [.num 6 63, .num 12 0x801] parseRouteSet (63, 0x801)
      ∧ takes lobby 0x79 [.num 6 63] (parseOne 6 63) 63 ∧ takes lobby 0x56 [] parseNone () :=
  ⟨⟨passes_of_meets (by decide +kernel), by decide +kernel⟩, by decide +kernel, passes_of_meets (by decide +kernel),
    passes_of_meets (by decide +kernel), passes_of_meets (by decide +kernel)⟩

theorem witness_ClaimsAreServedInClassOrder :
    (Tbl.wf lobby.sg.segs = true ∧ ∀ o, lobby.resetTaken o = false)
      ∧ ((lobby.setCtx 11 (.statusPending endRecord)).ctx 11 = .statusPending endRecord
          ∧ ∀ q, q ≠ 11 → (lobby.setCtx 11 (.statusPending endRecord)).ctx q = .idle)
      ∧ (resetting [.timebase] (lobby.setCtx 11 (.statusPending endRecord))).firstClaim = none
      ∧ (lobby.setCtx 11 (.statusPending endRecord)).firstClaim = some (.status 11)
      ∧ (lobby.setCtx 11 (.running markedRun)).firstClaim = some (.mark 11)
      ∧ lobby.firstClaim = some (.lapse lapsedHold.key)
      ∧ (unheld lobby).firstClaim = some (.closing { desk := 0, tag := 6 })
      ∧ (unnoticed lobby).firstClaim = some (.freed 3)
      ∧ (unfreed (lobby.setPort 11 claimed)).firstClaim = some (.portEvent 11)
      ∧ ({ unfreed lobby with fri := { lobby.fri with restored := some fedAgain } } : State).firstClaim = some .restored
      ∧ ({ unfreed lobby with tb := { lobby.tb with dayRolled := some { runSecond := 1, rolls := 1 } } } : State).firstClaim
          = some .dayRolled
      ∧ (unfreed lobby).firstClaim = none :=
  ⟨⟨by decide +kernel, fun _ => rfl⟩, by decide +kernel⟩

theorem witness_ReportRowsServeTheFirstClaim :
    ((packed lobby).full ∧ (resetting [] lobby).resetTaken .feedRing = true ∧ lobby.firstClaim ≠ some .dayRolled)
    ∧ (¬ lobby.full ∧ lobby.resetTaken .feedRing = false ∧ lobby.holdsLaw ∧ lobby.noticesLaw)
      ∧ (let s := lobby.setCtx 11 (.statusPending endRecord)
         s.firstClaim = some (.status 11) ∧ s.ctx 11 = .statusPending endRecord)
      ∧ (let s := lobby.setCtx 11 (.running markedRun)
         s.firstClaim = some (.mark 11) ∧ s.ctx 11 = .running markedRun ∧ markedRun.mark ≠ none)
      ∧ (lobby.firstClaim = some (.lapse lapsedHold.key) ∧ lapsedHold ∈ lobby.sq.holds ∧ lapsedHold.state = .lapsed .expired 50)
      ∧ ((unheld lobby).firstClaim = some (.closing { desk := 0, tag := 6 })
          ∧ { notice 6 0 0 (.closing 80) with claimed := true } ∈ (unheld lobby).nq.notices)
      ∧ ((unnoticed lobby).firstClaim = some (.freed 3)
          ∧ (unnoticed lobby).freedAt 3 = some { runSecond := 90, firstPage := 5, pages := 1, key := 0 })
      ∧ (let s := unfreed (lobby.setPort 11 claimed)
         s.firstClaim = some (.portEvent 11) ∧ (s.port 11).claims = claimed.claims)
      ∧ (let s := { unfreed lobby with fri := { lobby.fri with restored := some fedAgain } }
         s.firstClaim = some .restored ∧ s.fri.restored = some fedAgain)
      ∧ (let s := { unfreed lobby with tb := { lobby.tb with dayRolled := some { runSecond := 1, rolls := 1 } } }
         s.firstClaim = some .dayRolled ∧ s.tb.dayRolled = some { runSecond := 1, rolls := 1 })
      ∧ (unfreed lobby).firstClaim = none := by
  unfold State.holdsLaw State.noticesLaw; decide +kernel

theorem witness_HelloReportsTheUnit : takes lobby 0x01 [] parseNone () := passes_of_meets (by decide +kernel)

theorem witness_UnitResetIsTakenByEveryOwner :
    takes lobby 0x02 [] parseNone ()
      ∧ (∀ o : Owner, (resetting resetOwners lobby).oh.reset = some { owners := resetOwners, discarded := 0, bouncedKind := none }
          ∧ o ∈ resetOwners ∧ resetOwners.erase o ≠ [])
      ∧ (∀ o : Owner, (resetting [o] lobby).oh.reset = some { owners := [o], discarded := 0, bouncedKind := none }
          ∧ o ∈ [o] ∧ [o].erase o = []
          ∧ (resetting [o] lobby).fri.intake = orderCell 0x02 0 0 [] :: [loadCell 1 1 1])
      ∧ Tbl.wf lobby.sg.segs = true ∧ (∀ p, lobby.run? p = none)
      ∧ (let s := resetting resetOwners ((taking true).setPort 0 { line .ready with nextPlace := some picture })
         s.run? 0 = some { runAt 0 9 .empty with halting := true } ∧ (s.port 0).contextStaged = true)
      ∧ (packed lobby).full ∧ (resetting [.panelPorts] lobby).resetTaken .feedRing = true
      ∧ (let s := resetting resetOwners (packed (taking false))
         s.full ∧ s.run? 0 = some (runAt 0 9 .empty) ∧ (runAt 0 9 .empty).halting = false) :=
  ⟨passes_of_meets (by decide +kernel), by intro o; cases o <;> exact ⟨rfl, by decide, by decide⟩,
    by intro o; cases o <;> exact ⟨rfl, by decide, by decide, rfl⟩, by decide +kernel, by unfold State.run?; decide +kernel,
    by unfold State.run?; decide +kernel, by decide +kernel, by decide +kernel, by unfold State.run?; decide +kernel⟩

/-! ## Laws: each holds in a state that is not the reset state, and the step from there has a next state -/

/-- The lobby with an end of the clock's minute waiting to be worked through. -/
def waiting : State := { lobby with pending := [.runSecond] }

theorem segAt_mem {s : State} {n : Nat} {g : Segment} (h : s.segAt n = some g) : (n, SegRecord.used g) ∈ s.sg.segs := by
  unfold State.segAt at h
  split at h
  · next e => cases h; exact Tbl.mem_of_get e
  · cases h
  · cases h

theorem step_waiting : ∃ t, step waiting = .next t := ⟨_, rfl⟩

theorem witness_TableLawsKept :
    waiting.tablesLaw ∧ waiting.replyLaw ∧ waiting.routesLaw ∧ waiting.dayLaw ∧ ∃ t, step waiting = .next t := by
  refine ⟨by unfold State.tablesLaw; decide +kernel, by unfold State.replyLaw; decide +kernel,
    by unfold State.routesLaw; decide +kernel, ⟨⟨by decide, by decide⟩, fun n x h => ?_⟩, step_waiting⟩
  have : ∀ e ∈ lobby.st.shows, e.2.effStart + e.2.window ≤ 1799 := by decide +kernel
  exact this _ (Tbl.mem_of_get h)

theorem witness_TallyLawKept : waiting.tablesLaw ∧ waiting.tallyLaw ∧ ∃ t, step waiting = .next t := by
  refine ⟨by unfold State.tablesLaw; decide +kernel, ⟨by unfold State.holdsLaw; decide +kernel, fun r h => (nomatch h), ?_, ?_, ?_,
    ?_, ?_, ?_⟩, step_waiting⟩
  · intro n x h
    have : ∀ e ∈ lobby.st.shows, e.2.sold + e.2.held ≤ e.2.capacity ∧ (e.2.phase = .draft → e.2.sold = 0 ∧ e.2.held = 0) := by
      decide +kernel
    exact this _ (Tbl.mem_of_get h)
  · intro _ n x h
    have : ∀ e ∈ lobby.st.shows, e.2.held = lobby.liveSeats e.1 := by decide +kernel
    exact this _ (Tbl.mem_of_get h)
  · intro _ h hm hl
    have : ∀ h ∈ lobby.sq.holds, h.state = .live → h.showNo = 0 := by decide +kernel
    exact ⟨showIn .selling 3 2, by rw [this h hm hl]; rfl, .inl rfl⟩
  · intro _ e he
    exact nomatch he
  · intro h
    exact absurd h (by unfold State.taken; decide +kernel)
  · intro h
    exact absurd h (by unfold State.taken; decide +kernel)

theorem witness_BoardsFollowTheShows : waiting.tablesLaw ∧ waiting.boardsLaw ∧ ∃ t, step waiting = .next t := by
  refine ⟨by unfold State.tablesLaw; decide +kernel, ⟨fun r h => (nomatch h), fun _ _ => by decide +kernel, ?_, ?_, ?_⟩,
    step_waiting⟩
  · intro h
    exact absurd h (by unfold State.taken; decide +kernel)
  · intro h
    exact absurd h (by unfold State.taken; decide +kernel)
  · intro p i h
    have : ∀ q, (waiting.board q).pendingRows = 0 := by decide +kernel
    rw [this p] at h
    simp at h

/-- The lobby with a run on P0 (words of segment 0 of eight cells, so its slot is filled, its pins counted, its reel bound). -/
def playing : State :=
  let r : Run := { runAt 0 8 (.good 1 (word 0 1) false) with reel := 0 }
  { lobby with
    sg := { segs := [(0, .used (seg .ready 0 10 1 10 2)), (1, .used (seg .loading 1 2 1 1 0))], content := [] }
    rl := { reels := [(0, { words := [word 0 8, word 0 1], binding := 1 })] }
    pc := { contexts := lobby.pc.contexts.set 0 (.running r) }
    pending := [.arbiterTake 0] }

theorem step_playing : ∃ t, step playing = .next t := ⟨_, rfl⟩

theorem witness_PagesAndPinsLawsKept :
    playing.tablesLaw ∧ playing.pagesLaw ∧ playing.pinsLaw ∧ ∃ t, step playing = .next t := by
  have pages : ∀ e ∈ playing.sg.segs, ∀ g, e.2 = .used g → 1 ≤ g.length ∧ g.fill ≤ g.length ∧ g.firstPage + g.pages ≤ 262144 := by
    intro e he
    have : e = (0, .used (seg .ready 0 10 1 10 2)) ∨ e = (1, .used (seg .loading 1 2 1 1 0)) := by simpa [playing] using he
    rcases this with rfl | rfl <;> (intro g hg; cases hg; decide)
  have apart : ∀ m n g k, playing.segAt m = some g → playing.segAt n = some k → m ≠ n →
      g.firstPage + g.pages ≤ k.firstPage ∨ k.firstPage + k.pages ≤ g.firstPage := by
    intro m n g k hg hk hmn
    have a : (m = 0 ∧ g = seg .ready 0 10 1 10 2) ∨ (m = 1 ∧ g = seg .loading 1 2 1 1 0) := by
      simpa [playing] using segAt_mem hg
    have b : (n = 0 ∧ k = seg .ready 0 10 1 10 2) ∨ (n = 1 ∧ k = seg .loading 1 2 1 1 0) := by
      simpa [playing] using segAt_mem hk
    rcases a with ⟨rfl, rfl⟩ | ⟨rfl, rfl⟩ <;> rcases b with ⟨rfl, rfl⟩ | ⟨rfl, rfl⟩ <;> first | omega | decide
  refine ⟨by unfold State.tablesLaw; decide +kernel, ⟨fun n g h => pages _ (segAt_mem h) g rfl, apart⟩,
    ⟨by unfold State.noticesLaw; decide +kernel, fun _ n => ?_, fun n g h hl => ?_, ?_, ?_, ?_⟩, step_playing⟩
  · match n with
    | 0 => decide +kernel
    | 1 => decide +kernel
    | n + 2 => rfl
  · have b : (n = 0 ∧ g = seg .ready 0 10 1 10 2) ∨ (n = 1 ∧ g = seg .loading 1 2 1 1 0) := by
      simpa [playing] using segAt_mem h
    rcases b with ⟨_, rfl⟩ | ⟨_, rfl⟩
    · exact absurd hl (by decide)
    · rfl
  · intro h
    exact absurd h (by unfold State.taken; decide +kernel)
  · intro h
    exact absurd h (by unfold State.taken; decide +kernel)
  · intro h
    exact absurd h (by unfold State.taken; decide +kernel)

theorem witness_BindingAndRunningLawsKept : playing.bindingLaw ∧ playing.runningLaw ∧ ∃ t, step playing = .next t := by
  refine ⟨⟨fun _ n => ?_, ?_, ?_⟩, ?_, step_playing⟩
  · match n with
    | 0 => decide +kernel
    | n + 1 => rfl
  · intro h
    exact absurd h (by unfold State.taken; decide +kernel)
  · intro h
    exact absurd h (by unfold State.taken; decide +kernel)
  · intro p r h _
    have idle : ∀ q, q ≠ 0 → playing.ctx q = .idle := by decide +kernel
    by_cases e : p = 0
    · subst e
      decide +kernel
    · rw [idle p e] at h
      cases h

theorem witness_SelectionLawKept : waiting.selectionLaw ∧ ∃ t, step waiting = .next t :=
  ⟨by unfold State.selectionLaw State.noticesLaw; decide +kernel, step_waiting⟩

/-! ## One step of the commands -/

/-- The reply that stands last in the queue: order code, outcome, reason and own fields. -/
def lastReply (s : State) : Option (Nat × ReplyOutcome × Reason × List Fld) :=
  match s.fri.queue.getLast? with
  | some (.reply r) => some (r.code, r.outcome, r.reason, r.body)
  | _ => none

/-- An order that passes its checks in `s` is carried out. -/
theorem carried {α : Type} [DecidableEq α] {s : State} {code n key guard : Nat} {fs : List Fld}
    {parse : List Byte → Option α} {base : List Byte → State → List Fld} {act : OrderHead → α → State → State × Answer} (a : α)
    (h : meets s code parse (orderCell n key guard fs) a = true) :
    (.next ((holding (orderCell n key guard fs) s).order code parse base act) : Host.Outcome State Fault Refusal)
      = .next ((act (orderHead (orderCell n key guard fs)) a (holding (orderCell n key guard fs) s)).1.answer
          (orderCell n key guard fs)
          (act (orderHead (orderCell n key guard fs)) a (holding (orderCell n key guard fs) s)).2) :=
  congrArg _ (State.order_passes base act (passes_of_meets h))

theorem test_SEAT_HOLD : ∃ t, exec .seatHold (withHead lobby 0x20 (holdFields 3 0 5 0)) = .next t
    ∧ t.showAt 0 = some { showIn .selling 3 7 with avail := .full } ∧ t.sq.holds.length = 3
    ∧ (lastReply t).map (fun r => (r.1, r.2.2.1)) = some (0x20, .none) :=
  ⟨_, carried { key := { desk := 31, tag := 3 }, showNo := 0, seats := 5, seconds := 0 } (by decide +kernel), by decide +kernel⟩

theorem test_CLOCK_SET : ∃ t, exec .clockSet (withHead lobby 0x08 [.num 11 105, .num 6 59]) = .next t
    ∧ t.tb.clock = .running 105 59 ∧ (t.showAt 0).map Show.phase = some .running ∧ t.paths.boardMinutes = [105]
    ∧ lastReply t = some (0x08, .accepted, .none, [.num 1 1, .num 11 90, .num 6 0, .num 11 105, .num 6 59, .num 7 2]) :=
  ⟨_, carried (105, 59) (by decide +kernel), by decide +kernel⟩

theorem test_CLOCK_READ : ∃ t, exec .clockRead (withHead lobby 0x09 []) = .next t ∧ t.tb = lobby.tb
    ∧ lastReply t = some (0x09, .accepted, .none, [.num 1 1, .num 11 90, .num 6 0, .num 32 100, .num 1 0]) :=
  ⟨_, carried () (by decide +kernel), by decide +kernel⟩

theorem test_TITLE_CLEAR_in_use : ∃ t, exec .titleClear (withHead lobby 0x11 [.num 6 0]) = .next t ∧ t.st = lobby.st
    ∧ lastReply t = some (0x11, .accepted, .titleInUse, [.num 7 0]) :=
  ⟨_, carried 0 (by decide +kernel), by decide +kernel⟩

/-- R21: published at minute 90 with doors 10 before 100, a draft opens SEATING. -/
theorem test_SHOW_PUBLISH : ∃ t, exec .showPublish (withHead lobby 0x13 [.num 7 1]) = .next t
    ∧ t.showAt 1 = some (showIn .seating 0 0) ∧ t.showAt 0 = lobby.showAt 0 :=
  ⟨_, carried 1 (by decide +kernel), by decide +kernel⟩

theorem test_SHOW_EDIT : ∃ t, exec .showEdit (withHead lobby 0x14 (editFields 0x003 [.num 10 5, .num 6 0])) = .next t
    ∧ t.showAt 0 = some { showIn .selling 3 2 with few := 5, band := 0, avail := .few } :=
  ⟨_, carried { noEdit with few := some 5, band := some 0 } (by decide +kernel), by decide +kernel⟩

theorem test_SHOW_DELAY : ∃ t, exec .showDelay (withHead lobby 0x15 [.num 7 0, .num 8 240]) = .next t
    ∧ t.showAt 0 = some { showIn .selling 3 2 with delay := 240 } :=
  ⟨_, carried (0, 240) (by decide +kernel), by decide +kernel⟩

theorem test_SHOW_CANCEL : ∃ t, exec .showCancel (withHead (packed lobby) 0x16 [.num 7 0]) = .next t
    ∧ t.showAt 0 = some { showIn .cancelled 3 0 with cancelledListed := true }
    ∧ (t.sq.holds.map Hold.state) = [.lapsed .showCancelled 100, .lapsed .expired 50] :=
  ⟨_, carried 0 (by decide +kernel), by decide +kernel⟩

theorem test_SHOW_DROP : ∃ t, exec .showDrop (withHead lobby 0x17 [.num 7 4]) = .next t ∧ t.showAt 4 = none
    ∧ lastReply t = some (0x17, .accepted, .none, [.num 7 4, .num 1 0, .num 1 0]) :=
  ⟨_, carried 4 (by decide +kernel), by decide +kernel⟩

theorem test_SEAT_CONFIRM : ∃ t, exec .seatConfirm (withHead lobby 0x21 [.num 5 0, .num 16 1]) = .next t
    ∧ t.showAt 0 = some (showIn .selling 5 0) ∧ t.sq.holds = [lapsedHold] :=
  ⟨_, carried { desk := 0, tag := 1 } (by decide +kernel), by decide +kernel⟩

/-- R44: behind the untaken end notice of its show the hold has lapsed, with a place for the claim's report or without. -/
theorem test_SEAT_CONFIRM_behind_end_notice : ∃ t, exec .seatConfirm (withHead (unfreed noticed) 0x21 [.num 5 0, .num 16 1]) = .next t
    ∧ t.showAt 0 = some (showIn .ended 3 0) ∧ t.sq.holds = [] ∧ t.fri.queue.length = 1
    ∧ (lastReply t).map (fun r => r.2.2.1) = some .holdLapsed :=
  ⟨_, carried { desk := 0, tag := 1 } (by decide +kernel), by decide +kernel⟩

theorem test_SEAT_RELEASE_lapsed : ∃ t, exec .seatRelease (withHead lobby 0x22 [.num 5 0, .num 16 2]) = .next t
    ∧ t.showAt 0 = lobby.showAt 0 ∧ t.sq.holds = [liveHold] ∧ (lastReply t).map (fun r => r.2.2.1) = some .holdLapsed :=
  ⟨_, carried { desk := 0, tag := 2 } (by decide +kernel), by decide +kernel⟩

theorem test_SEAT_SELL_too_many : ∃ t, exec .seatSell (withHead lobby 0x23 [.num 7 0, .num 5 6]) = .next t
    ∧ t.showAt 0 = lobby.showAt 0 ∧ (lastReply t).map (fun r => r.2.2.1) = some .notEnoughSeats :=
  ⟨_, carried (0, 6) (by decide +kernel), by decide +kernel⟩

theorem test_SEAT_REFUND : ∃ t, exec .seatRefund (withHead lobby 0x24 [.num 7 4, .num 5 1]) = .next t
    ∧ t.showAt 4 = some (showIn .cancelled 0 0) := ⟨_, carried (4, 1) (by decide +kernel), by decide +kernel⟩

/-- Rows by effective start, auditorium and show number: the open shows 0, 3 and 5. -/
theorem test_BOARD_SET : ∃ t,
    exec .boardSet (withHead lobby 0x30 [.num 4 11, .num 5 4, .num 24 0xFFFFFF, .num 11 0, .num 1 1]) = .next t
    ∧ (t.board 11).rowList = [some 0, some 3, some 5, none] ∧ (t.board 11).pendingRows = 0xF :=
  ⟨_, carried { port := 11, rows := 4, filter := 0xFFFFFF, window := 0, cancelledShown := true } (by decide +kernel),
    by decide +kernel⟩

theorem test_SEGMENT_DEFINE : ∃ t, exec .segmentDefine (withHead lobby 0x40 (defineFields 3 262143 64)) = .next t
    ∧ t.segAt 3 = some (seg .loading 262143 64 0 0 0) ∧ t.freedAt 3 = none :=
  ⟨_, carried { segment := 3, firstPage := 262143, length := 64, key := 0 } (by decide +kernel), by decide +kernel⟩

theorem test_SEGMENT_RETIRE : ∃ t, exec .segmentRetire (withHead lobby 0x42 [.num 10 0]) = .next t ∧ t.segAt 0 = none
    ∧ lastReply t = some (0x42, .accepted, .none, [.num 10 0, .num 2 0, .num 6 0]) :=
  ⟨_, carried 0 (by decide +kernel), by decide +kernel⟩

theorem test_REEL_CLEAR : ∃ t, exec .reelClear (withHead lobby 0x51 [.num 5 0]) = .next t ∧ t.rl.reels.map Prod.fst = [1]
    ∧ lastReply t = some (0x51, .accepted, .none, [.num 5 0, .num 6 2]) :=
  ⟨_, carried 0 (by decide +kernel), by decide +kernel⟩

/-- A word of nine cells leaves the slot empty; the run and its pin and binding begin. -/
theorem test_REEL_START : ∃ t, exec .reelStart (withHead lobby 0x53 (startFields 0)) = .next t
    ∧ (t.ctx 0).run?.map (fun r => (r.curIndex, r.residual, r.cutDue, r.slot)) = some (0, 9, true, .empty)
    ∧ (t.reelAt 0).binding = 1 ∧ t.pinsOf 0 = 1 := ⟨_, carried (startOrder 0) (by decide +kernel), by decide +kernel⟩

/-- R111, R199 item 4: an IDLE context has no run to have ended; a run without a staged cell has ended by its halt's reply. -/
theorem test_REEL_HALT_idle : ∃ t, exec .reelHalt (withHead lobby 0x54 [.num 4 0]) = .next t
    ∧ lastReply t = some (0x54, .accepted, .none, [.num 1 0]) := ⟨_, carried 0 (by decide +kernel), by decide +kernel⟩

theorem test_REEL_HALT_ends : ∃ t, exec .reelHalt (withHead (packed (ending 0 false)) 0x54 [.num 4 0]) = .next t
    ∧ (t.ctx 0).record?.map (fun r => (r.reason, r.lostMark)) = some (.halted, some 0)
    ∧ lastReply t = some (0x54, .accepted, .none, [.num 1 1, .num 1 1]) := ⟨_, carried 0 (by decide +kernel), by decide +kernel⟩

/-- Equal or higher priority stands before the new notice; P2 is OFF, so it waits. -/
theorem test_NOTICE_POST : ∃ t, exec .noticePost (withHead (packed lobby) 0x60 postText) = .next t
    ∧ t.nq.notices.map (fun n => (n.key.tag, n.priority)) = [(9, 3), (5, 2), (6, 0)]
    ∧ (t.noticeAt postTextOrder.key).map (fun n => (n.state, n.deadline)) = some (.waiting, some 3700) :=
  ⟨_, carried postTextOrder (by decide +kernel), by decide +kernel⟩

/-- R131, R123: the post wakes P2; the reply names it, and its claim waits. -/
theorem test_NOTICE_POST_wakes : ∃ t, exec .noticePost (withHead (packed (darkAt .dark)) 0x60 postText) = .next t
    ∧ (t.port 2).settings.mode = .live
    ∧ (t.port 2).claims = [{ event := .woken postTextOrder.key 3 100, occurrences := 1 }]
    ∧ lastReply t = some (0x60, .accepted, .none,
        [.num 5 31, .num 16 9, .num 2 1, .num 12 0x200, .num 12 0x200, .num 1 1, .num 32 3700, .num 1 0, .num 1 0, .num 1 0,
         .num 1 0, .num 1 0, .num 1 0]) :=
  ⟨_, carried postTextOrder (by decide +kernel), by decide +kernel⟩

theorem test_NOTICE_WITHDRAW_closing : ∃ t, exec .noticeWithdraw (withHead lobby 0x61 [.num 5 0, .num 16 6]) = .next t
    ∧ t.nq.notices.map (fun n => n.key.tag) = [5] := ⟨_, carried { desk := 0, tag := 6 } (by decide +kernel), by decide +kernel⟩

/-- A linked port shows nothing until it is READY; the first cell staged is LINK. -/
theorem test_PORT_ENABLE : ∃ t, exec .portEnable (withHead lobby 0x70 [.num 4 2]) = .next t
    ∧ (t.port 2).state = .linking ∧ (t.port 2).nextPlace.map Staged.isLink = some true ∧ (t.port 2).linkTimer = true :=
  ⟨_, carried 2 (by decide +kernel), by decide +kernel⟩

theorem test_PORT_DISABLE : ∃ t, exec .portDisable (withHead lobby 0x71 [.num 4 0]) = .next t
    ∧ (t.port 0).state = .off ∧ (t.port 0).keepAlive = .stopped := ⟨_, carried 0 (by decide +kernel), by decide +kernel⟩

theorem test_PORT_SET_wake : ∃ t,
    exec (.portSet 0 0) (withHead (darkAt .live) 0x73 [.num 4 2, .num 7 0x40, .num 2 2]) = .next t
    ∧ (t.port 2).settings.mode = .live ∧ (lastReply t).map (fun r => r.2.2.1) = some .wakeNotice :=
  ⟨_, carried { noPortEdit 2 with mode := some .dark } (by decide +kernel), by decide +kernel⟩

/-- R157, R164: a keep-alive interval that has already passed since the last take has run out. -/
theorem test_PORT_SET_keep_alive : ∃ t,
    exec (.portSet 0 3200) (withHead lobby 0x73 [.num 4 0, .num 7 0x04, .num 3 7]) = .next t
    ∧ (t.port 0).keepAlive = .ranOut ∧ (t.port 0).settings.keepAlive = 7 :=
  ⟨_, carried { noPortEdit 0 with keepAlive := some 7 } (by decide +kernel), by decide +kernel⟩

theorem test_ROUTE_SET : ∃ t, exec .routeSet (withHead lobby 0x78 [.num 6 63, .num 12 0x801]) = .next t
    ∧ t.fri.routes = [(63, 0x801)]
    ∧ lastReply t = some (0x78, .accepted, .none, [.num 6 63, .num 12 0, .num 12 0x801]) :=
  ⟨_, carried (63, 0x801) (by decide +kernel), by decide +kernel⟩

theorem test_HELLO : ∃ t, exec .hello (withHead lobby 0x01 []) = .next t
    ∧ (lastReply t).map (fun r => r.2.2.2.length) = some 19 := ⟨_, carried () (by decide +kernel), by decide +kernel⟩

/-- R183, R193: the FRI as the last owner bounces the LOAD cell, discards the queue, and the reply is placed. -/
theorem test_last_owner_lets_the_reply_be_placed : ∃ t,
    exec (.resetTakenByOwner .feedRing) (resetting [.feedRing] (packed lobby)) = .next t ∧ t.oh.reset = none
      ∧ t.fri.intake = [] ∧ t.fri.reservations = 0 ∧ t.fri.bounced.map cellKind = [6] ∧ t.fri.queue.length = 1
      ∧ lastReply t = some (0x02, .accepted, .none,
          [.num 2 1, .num 2 0, .num 32 0, .num 5 16, .num 1 1, .num 2 2]) := ⟨_, rfl, by decide +kernel⟩

theorem test_power_on : ∃ t, exec (.powerOn 7) lobby = .next t ∧ t.fri.address = 7 ∧ t.st.shows = [] ∧ (t.port 1).hold = true
    ∧ t.epoch = 1 := ⟨_, rfl, by decide +kernel⟩

theorem test_day_rolls : ∃ t, exec .clockSecond { lobby with tb := { lobby.tb with clock := .running 1799 59 } } = .next t
    ∧ t.tb.clock = .running 0 0 ∧ t.paths.showMinutes = [0] := ⟨_, rfl, by decide +kernel⟩

/-- At its deadline a hold lapses, and gives its seats back. -/
theorem test_hold_lapses : ∃ t, exec .holdExpiry (packed { lobby with paths := { lobby.paths with tallySeconds := [200] } }) = .next t
    ∧ t.showAt 0 = some (showIn .selling 3 0) ∧ t.sq.holds.map Hold.state = [.lapsed .expired 200, .lapsed .expired 50] :=
  ⟨_, rfl, by decide +kernel⟩

theorem test_hold_stays_before_deadline :
    ∃ t, exec .holdExpiry (packed { lobby with paths := { lobby.paths with tallySeconds := [199] } }) = .next t
      ∧ t.sq = lobby.sq ∧ t.st = lobby.st ∧ t.paths = lobby.paths := ⟨_, rfl, by decide +kernel⟩

/-- R44: the deadline meets an untaken end notice, which is taken first. -/
theorem test_hold_lapses_behind_end_notice : ∃ t, exec .holdExpiry noticedDue = .next t
    ∧ t.showAt 0 = some (showIn .ended 3 0) ∧ t.sq.holds.map Hold.state = [.lapsed .showEnded 100, .lapsed .expired 50]
    ∧ t.paths.endNotices = [(4, .showEnded)] := ⟨_, rfl, by decide +kernel⟩

/-- R17, R55: the rows of the shows that a minute ends are emptied, and owed. -/
theorem test_minute_event_moves_rows : ∃ t,
    exec .minuteEvent
      { boarded with
        paths := { lobby.paths with showMinutes := [110] }
        bc := (lobby.setBoard 0 { Board.initial with rows := 3, rowList := [some 0, some 3, some 5] }).bc } = .next t
    ∧ (t.board 0).rowList = [none, none, none] ∧ (t.board 0).pendingRows = 7 := ⟨_, rfl, by decide +kernel⟩

theorem test_minute_event_evaluates : ∃ t, exec .minuteEvent { lobby with paths := { lobby.paths with showMinutes := [110] } } = .next t
    ∧ (t.showAt 0).map Show.phase = some .ended ∧ t.paths.endNotices = [(0, .showEnded), (3, .showEnded), (5, .showEnded)] :=
  ⟨_, rfl, by decide +kernel⟩

theorem test_link_cell_makes_ready : ∃ t, exec (.cellStart 3 0) (packed lobby) = .next t ∧ (t.port 3).state = .ready
    ∧ (t.port 3).sendingPlace.map Staged.isLink = some true ∧ (t.port 3).linkTimer = false := ⟨_, rfl, by decide +kernel⟩

theorem test_drain_ends : ∃ t, exec (.cellSent 5) lobby = .next t ∧ (t.port 5).state = .off
    ∧ (t.port 5).strobed.map (fun b => b.take 3) = some [1, 0, 5] := ⟨_, rfl, by decide +kernel⟩

theorem test_hold_timeout_stalls : ∃ t, exec (.holdTimeout 1 200) (packed lobby) = .next t ∧ (t.port 1).state = .stalled
    ∧ (t.port 1).claims = [{ event := .stalled .holdTimeout .held 100, occurrences := 1 }] := ⟨_, rfl, by decide +kernel⟩

theorem test_hold_timeout_not_yet : ∃ t, exec (.holdTimeout 1 199) lobby = .next t ∧ (t.port 1).state = .held
    ∧ (t.port 1).claims = [] := ⟨_, rfl, by decide +kernel⟩

theorem test_hold_asserted : ∃ t, exec (.holdAsserted 0) lobby = .next t ∧ (t.port 0).state = .held ∧ (t.port 0).holdTimer = true :=
  ⟨_, rfl, by decide +kernel⟩

theorem test_retry : ∃ t, exec (.retryTimeout 4 8000) lobby = .next t ∧ (t.port 4).state = .linking
    ∧ (t.port 4).nextPlace.map Staged.isLink = some true := ⟨_, rfl, by decide +kernel⟩

theorem test_last_cell_of_word : ∃ t, exec (.arbiterTake 0) (lastCell (.good 1 (word 0 1) false)) = .next t
    ∧ (t.ctx 0).run?.map (fun r => (r.curIndex, r.residual, r.cutDue)) = some (1, 1, true) := ⟨_, rfl, by decide +kernel⟩

theorem test_prefetch_pins_the_next_word :
    ((State.prefetch 0 (prefetching (runAt 0 8 .empty))).ctx 0).run?.map Run.slot = some (.good 1 (word 0 1) false)
      ∧ (State.prefetch 0 (prefetching (runAt 0 8 .empty))).pinsOf 0 = 1
      ∧ ((State.prefetch 0 (unfreed (prefetching (runAt 0 8 .empty)))).ctx 0).run?.map Run.slot
          = some (.deferred 1 .segmentNotReady) := by decide +kernel

/-- R106, R130: the run resumes at the start of its word behind a CUT. -/
theorem test_takeover_leaves : ((State.selectPort 0 leaving).ctx 0).run? = some { runAt 0 9 .empty with cutDue := true } := by
  decide +kernel

/-- R59, R60, 10.3: a strip, and the blank strip of an emptied slot. -/
theorem test_strips : (boarded.stripCell 0 0).payload.take 14 = [0, 3, 0, 1, 0, 100, 0, 1, 1, 0, 5, 0, 1, 0x41]
    ∧ (boarded.stripCell 0 1).payload = [1, 3, 0xFF] ++ List.replicate 61 0 := by decide +kernel

/-- R194, R172: a port already reset, whose picture is not open, copies the LIVE cell of the old routes or drops it with the live gap
on, by a free value (log 34). -/
theorem test_live_cell_at_a_reset_port :
    let r := (State.copyLive zeroPayload 0 relinked).port 0
    (r.live = [zeroPayload] ∨ r.live = [] ∧ r.liveGap = true) ∧ r.liveChoices = 1 := by
  have h : State.copyLive zeroPayload 0 relinked = relinked.setPort 0 (relinked.meetResetPort zeroPayload 0) := by
    unfold State.copyLive
    rw [if_neg (by decide +kernel), if_neg (by decide +kernel), if_pos (by decide +kernel)]
  simp only [h, State.port_setPort_same, State.meetResetPort]
  split
  · exact ⟨.inl (by decide +kernel), by decide +kernel⟩
  · exact ⟨.inr (by decide +kernel), by decide +kernel⟩

/-- R172: the same port with no UNIT RESET under way drops the cell. -/
theorem test_live_cell_at_a_closed_picture :
    ((State.routeLive (cellOf 3 0 noExtra zeroPayload) { relinked with oh := lobby.oh }).port 0).live = [] := by decide +kernel

/-- 10.2: the common part of a reply. -/
theorem test_reply_part : (payloadOf fullReply.fields).take 11 = [0x79, 0xFF, 0xFF, 31, 0x83, 26, 0xFF, 0xFF, 0xFF, 0xFF, 0] := by
  decide +kernel

theorem test_bounced_header : (bounceCell (loadCell 1 1 1)).take 11 = [6, 2, 0, 30, 0, 1, 0, 0, 1, 1, 0] := by decide +kernel

theorem test_hold_lapsed_report : ∃ t, exec .holdLapsed lobby = .next t ∧ t.sq.holds = [liveHold] ∧ t.fri.queue.length = 1 :=
  ⟨_, rfl, by decide +kernel⟩

theorem test_report_row_waits_its_turn : ∃ t, exec .dayRolled lobby = .next t ∧ t.fri = lobby.fri ∧ t.tb = lobby.tb :=
  ⟨_, rfl, by decide +kernel⟩

theorem test_own_slot_sends_the_queue : ∃ t,
    exec .ownSlot (packed { lobby with fri := { lobby.fri with feed := .lost } }) = .next t ∧ t.fri.queue.length = 15 :=
  ⟨_, rfl, by decide +kernel⟩

theorem test_owner_takes_reset : ∃ t,
    exec (.resetTakenByOwner .seatTally)
      { lobby with oh := { lobby.oh with reset := some { owners := [.seatTally, .reelTable], discarded := 0, bouncedKind := none } } }
      = .next t ∧ t.sq.holds = [] ∧ t.oh.reset.map ResetProgress.owners = some [.reelTable] := ⟨_, rfl, by decide +kernel⟩

end Sys2Proof.Tests
end

section
/-! SUPPORT. The phase each show slot holds (R10): what every operation on the Show Table and the Seat Tally makes of it. -/
namespace Sys2Proof.Machine

/-! ## The phase of a slot -/

/-- The phase of the record in show slot `n`, or none for an EMPTY slot. -/
def State.phaseAt (s : State) (n : Nat) : Option Phase := (s.showAt n).map Show.phase

theorem State.phaseAt_of_showAt {s : State} {n : Nat} {x : Show} (h : s.showAt n = some x) : s.phaseAt n = some x.phase := by
  simp [State.phaseAt, h]

theorem State.phaseAt_eq_some {s : State} {n : Nat} {a : Phase} :
    s.phaseAt n = some a ↔ ∃ x, s.showAt n = some x ∧ x.phase = a := by
  simp [State.phaseAt]

theorem State.phaseAt_eq_none {s : State} {n : Nat} : s.phaseAt n = none ↔ s.showAt n = none := by
  simp [State.phaseAt]

/-- The show records alone bear on the phases. -/
theorem State.phaseAt_of_shows {s t : State} (h : t.st.shows = s.st.shows) : t.phaseAt = s.phaseAt := by
  funext n
  simp only [State.phaseAt, State.showAt, h]

theorem State.phaseAt_of_st {s t : State} (h : t.st = s.st) : t.phaseAt = s.phaseAt := State.phaseAt_of_shows (by rw [h])

@[simp] theorem State.showAt_setShow_same (s : State) (n : Nat) (x : Show) : (s.setShow n x).showAt n = some x :=
  Tbl.get_put_same _ _ _

theorem State.showAt_setShow_other (s : State) {n k : Nat} (x : Show) (h : n ≠ k) : (s.setShow n x).showAt k = s.showAt k :=
  Tbl.get_put_other _ _ h

@[simp] theorem State.phaseAt_setShow_same (s : State) (n : Nat) (x : Show) : (s.setShow n x).phaseAt n = some x.phase :=
  State.phaseAt_of_showAt (State.showAt_setShow_same s n x)

theorem State.phaseAt_setShow_other (s : State) {n k : Nat} (x : Show) (h : n ≠ k) :
    (s.setShow n x).phaseAt k = s.phaseAt k := by
  simp only [State.phaseAt, State.showAt_setShow_other s x h]

/-- A record written with the phase its slot has moves no phase. -/
theorem State.phaseAt_setShow_keeps {s : State} {n : Nat} {x y : Show} (hx : s.showAt n = some x) (hy : y.phase = x.phase) :
    (s.setShow n y).phaseAt = s.phaseAt := by
  funext k
  by_cases h : n = k
  · subst h
    rw [State.phaseAt_setShow_same, State.phaseAt_of_showAt hx, hy]
  · exact State.phaseAt_setShow_other s y h

theorem State.phaseAt_clearShow (s : State) (n k : Nat) :
    (s.clearShow n).phaseAt k = if n = k then none else s.phaseAt k := by
  simp only [State.phaseAt, State.showAt, State.clearShow, Tbl.get_erase]
  split <;> rfl

@[simp] theorem State.phaseAt_showChange (n : Nat) (s : State) : (s.showChange n).phaseAt = s.phaseAt :=
  State.phaseAt_of_st (by simp)

@[simp] theorem State.phaseAt_announce (n : Nat) (before : Show) (s : State) : (s.announce n before).phaseAt = s.phaseAt :=
  State.phaseAt_of_st (by simp)

/-! ## The Seat Tally moves no phase (2.4) -/

@[simp] theorem State.phaseAt_settleTally (n : Nat) (before : Option Show) (s : State) :
    (s.settleTally n before).phaseAt = s.phaseAt := by
  cases hx : s.showAt n with
  | none => simp only [State.settleTally, hx]
  | some x =>
    have kept : (s.setShow n x.retally).phaseAt = s.phaseAt := State.phaseAt_setShow_keeps hx rfl
    simp only [State.settleTally, hx]
    split
    · exact kept
    · exact (State.phaseAt_showChange n _).trans kept

/-- R29, for an operation on the counts that leaves the phase alone. -/
theorem State.phaseAt_moveTally (n : Nat) {f : Show → Show} (hf : ∀ x, (f x).phase = x.phase) (s : State) :
    (s.moveTally n f).phaseAt = s.phaseAt := by
  cases hx : s.showAt n with
  | none => simp only [State.moveTally, hx]
  | some x =>
    simp only [State.moveTally, hx, State.phaseAt_settleTally]
    exact State.phaseAt_setShow_keeps hx (hf x)

theorem State.phaseAt_mapShow (n : Nat) {f : Show → Show} (hf : ∀ x, (f x).phase = x.phase) (s : State) :
    (s.mapShow n f).phaseAt = s.phaseAt := by
  cases hx : s.showAt n with
  | none => simp only [State.mapShow, hx]
  | some x =>
    simp only [State.mapShow, hx]
    exact State.phaseAt_setShow_keeps hx (hf x)

@[simp] theorem State.phaseAt_lowerHeld (n seats : Nat) (s : State) : (s.lowerHeld n seats).phaseAt = s.phaseAt := by
  cases hx : s.showAt n with
  | none => simp only [State.lowerHeld, hx]
  | some x =>
    simp only [State.lowerHeld, hx]
    exact State.phaseAt_setShow_keeps hx rfl

@[simp] theorem State.phaseAt_lapseHold (cause : LapseCause) (time : Nat) (h : Hold) (s : State) :
    (s.lapseHold cause time h).phaseAt = s.phaseAt := by
  rw [State.lapseHold, State.phaseAt_lowerHeld]
  exact State.phaseAt_of_st rfl

@[simp] theorem State.phaseAt_lapseHolds (cause : LapseCause) (time : Nat) (hs : List Hold) (s : State) :
    (s.lapseHolds cause time hs).phaseAt = s.phaseAt :=
  foldl_keeps State.phaseAt _ (fun t h => State.phaseAt_lapseHold cause time h t) hs s

@[simp] theorem State.phaseAt_serveWaiting (s : State) : s.serveWaiting.phaseAt = s.phaseAt := State.phaseAt_of_st (by simp)

@[simp] theorem State.phaseAt_dropEndNotices (n : Nat) (s : State) : (s.dropEndNotices n).phaseAt = s.phaseAt :=
  State.phaseAt_of_st (by simp)

theorem State.phaseAt_withClaim (s : State) {make : State → State} (h : ∀ t : State, (make t).phaseAt = t.phaseAt) :
    (s.withClaim make).phaseAt = s.phaseAt := by
  simp [State.withClaim, h]

@[simp] theorem State.phaseAt_endPass (n : Nat) (cause : LapseCause) (s : State) :
    (s.endPass n cause).phaseAt = s.phaseAt := by
  unfold State.endPass
  split <;> simp

@[simp] theorem State.phaseAt_endPassPlaced (n : Nat) (cause : LapseCause) (s : State) :
    (s.endPassPlaced n cause).phaseAt = s.phaseAt := by
  unfold State.endPassPlaced
  split
  · rfl
  · exact State.phaseAt_withClaim s (State.phaseAt_endPass n cause)

/-- R44: the pass of an untaken end notice moves no phase, so an order behind it finds the phases as they were, and nothing after
the order moves them. -/
theorem State.phaseAt_afterNotice {α : Type} (n : Nat) (act : State → State × α) (s : State) :
    ∃ u : State, u.phaseAt = s.phaseAt ∧ (s.afterNotice n act).1.phaseAt = (act u).1.phaseAt := by
  unfold State.afterNotice
  split
  · exact ⟨s, rfl, rfl⟩
  · split
    · exact ⟨s.dropEndNotices n, by simp, rfl⟩
    · exact ⟨_, by simp, State.phaseAt_serveWaiting _⟩

theorem State.phaseAt_afterNotice_keeps {α : Type} (n : Nat) {act : State → State × α}
    (h : ∀ t : State, (act t).1.phaseAt = t.phaseAt) (s : State) : (s.afterNotice n act).1.phaseAt = s.phaseAt := by
  obtain ⟨u, hu, hact⟩ := s.phaseAt_afterNotice n act
  exact hact.trans ((h u).trans hu)

theorem State.phaseAt_afterKeyNotice_keeps {α : Type} (k : DeskTag) {act : State → State × α}
    (h : ∀ t : State, (act t).1.phaseAt = t.phaseAt) (s : State) : (s.afterKeyNotice k act).1.phaseAt = s.phaseAt := by
  unfold State.afterKeyNotice
  split
  · split
    · exact State.phaseAt_afterNotice_keeps _ h s
    · exact h s
  · exact h s

@[simp] theorem State.phaseAt_endNoticesDue (count : Nat) (s : State) : (s.endNoticesDue count).phaseAt = s.phaseAt :=
  foldl_keeps State.phaseAt _ (fun t n => State.phaseAt_afterNotice_keeps n (fun _ => rfl) t) _ s

@[simp] theorem State.phaseAt_lapseDue (count : Nat) (due : List Hold) (s : State) :
    (s.lapseDue count due).phaseAt = s.phaseAt :=
  (foldl_keeps State.phaseAt _ (fun t n => State.phaseAt_settleTally n (s.showAt n) t) _ _).trans
    (State.phaseAt_lapseHolds .expired count due s)

@[simp] theorem State.phaseAt_expiryPass (count : Nat) (s : State) : (s.expiryPass count).phaseAt = s.phaseAt := by
  unfold State.expiryPass
  split
  · rfl
  · exact State.phaseAt_withClaim s (State.phaseAt_lapseDue count _)

theorem State.phaseAt_holdExpiry (s : State) : s.holdExpiry.phaseAt = s.phaseAt := by
  unfold State.holdExpiry
  split
  · rfl
  · rw [State.phaseAt_expiryPass, State.phaseAt_endNoticesDue]
    exact State.phaseAt_of_st rfl

theorem State.phaseAt_endNotice (s : State) : s.endNotice.phaseAt = s.phaseAt := by
  unfold State.endNotice
  split
  · rfl
  · rw [State.phaseAt_endPassPlaced]
    exact State.phaseAt_of_st rfl

/-! ## The seat orders and the title orders move no phase (2.3, 1.2) -/

theorem phaseAt_collectLapse (h : Hold) (s : State) : (collectLapse h s).1.phaseAt = s.phaseAt := State.phaseAt_of_st (by simp)

theorem phaseAt_seatHold (o : HoldOrder) (s : State) : (seatHold o s).1.phaseAt = s.phaseAt := by
  unfold seatHold
  split
  · rfl
  · refine (State.phaseAt_moveTally _ ?_ _).trans (State.phaseAt_of_st rfl)
    exact fun _ => rfl

theorem phaseAt_seatConfirm (k : DeskTag) (s : State) : (seatConfirm k s).1.phaseAt = s.phaseAt := by
  unfold seatConfirm
  split
  · rfl
  · split
    · refine (State.phaseAt_mapShow _ ?_ _).trans (State.phaseAt_of_st rfl)
      exact fun _ => rfl
    · exact phaseAt_collectLapse _ s

theorem phaseAt_seatRelease (k : DeskTag) (s : State) : (seatRelease k s).1.phaseAt = s.phaseAt := by
  unfold seatRelease
  split
  · rfl
  · split
    · refine (State.phaseAt_moveTally _ ?_ _).trans (State.phaseAt_of_st rfl)
      exact fun _ => rfl
    · exact phaseAt_collectLapse _ s

theorem phaseAt_seatSell (n k : Nat) (s : State) : (seatSell n k s).1.phaseAt = s.phaseAt := by
  unfold seatSell
  split
  · rfl
  · refine State.phaseAt_moveTally n ?_ s
    exact fun _ => rfl

theorem phaseAt_seatRefund (n k : Nat) (s : State) : (seatRefund n k s).1.phaseAt = s.phaseAt := by
  unfold seatRefund
  split
  · rfl
  · refine State.phaseAt_moveTally n ?_ s
    exact fun _ => rfl

theorem phaseAt_actTitleLoad (h : OrderHead) (a : Nat × List Byte) (s : State) :
    (actTitleLoad h a s).1.phaseAt = s.phaseAt := by
  have written : (s.setTitle a.1 a.2).phaseAt = s.phaseAt := State.phaseAt_of_shows rfl
  unfold actTitleLoad
  dsimp only
  split
  · exact (State.phaseAt_of_st (by simp)).trans written
  · exact written

theorem phaseAt_actTitleClear (h : OrderHead) (n : Nat) (s : State) : (actTitleClear h n s).1.phaseAt = s.phaseAt := by
  unfold actTitleClear
  split
  · rfl
  · split <;> exact State.phaseAt_of_shows rfl

end Sys2Proof.Machine
end

section
/-! SUPPORT. The law of the show phase (R13): evaluation of one record, and the phases of all slots before and after an
operation, an order and a command. -/
namespace Sys2Proof.Machine

/-! ## Evaluation of one record (R12, R13) -/

/-- R13: an open show moves to the fitting phase when that lies further along. -/
theorem Show.evaluate_forward {x : Show} {minute : Nat} (ho : x.phase.isOpen = true)
    (hr : x.phase.rank < (x.fitting minute).rank) : x.evaluate minute = { x with phase := x.fitting minute } := by
  simp [Show.evaluate, ho, hr]

/-- R13: a fitting phase that does not lie further along leaves the show as it is. -/
theorem Show.evaluate_stays {x : Show} {minute : Nat} (hr : (x.fitting minute).rank ≤ x.phase.rank) :
    x.evaluate minute = x := by
  simp [Show.evaluate, Nat.not_lt.mpr hr]

/-- R12: DRAFT, ENDED and CANCELLED are left as they are. -/
theorem Show.evaluate_closed {x : Show} {minute : Nat} (ho : x.phase.isOpen = false) : x.evaluate minute = x := by
  simp [Show.evaluate, ho]

theorem Show.fitting_ne_cancelled (x : Show) (minute : Nat) : x.fitting minute ≠ .cancelled := by
  unfold Show.fitting
  (repeat' split) <;> decide

/-- Evaluation keeps the phase, or moves an open show further along and not to CANCELLED. -/
theorem Show.evaluate_phase (x : Show) (minute : Nat) :
    (x.evaluate minute).phase = x.phase
      ∨ (x.phase.isOpen = true ∧ x.phase.rank < (x.evaluate minute).phase.rank ∧ (x.evaluate minute).phase ≠ .cancelled) := by
  cases ho : x.phase.isOpen with
  | false => exact .inl (by rw [Show.evaluate_closed ho])
  | true =>
    rcases Nat.lt_or_ge x.phase.rank (x.fitting minute).rank with hr | hr
    · rw [Show.evaluate_forward ho hr]
      exact .inr ⟨rfl, hr, x.fitting_ne_cancelled minute⟩
    · exact .inl (by rw [Show.evaluate_stays hr])

/-! ## Which phase may follow which -/

/-- R13, the law of the show phase in the words of its statement. -/
theorem Phase.mayBecome_iff (a b : Phase) :
    a.mayBecome b = true ↔
      a.rank ≤ b.rank ∧ (b = .cancelled → a ≠ .draft ∧ a ≠ .ended) ∧ (a = .cancelled → b = .cancelled) := by
  cases a <;> cases b <;> decide

@[simp] theorem Phase.mayBecome_self (a : Phase) : a.mayBecome a = true := by
  cases a <;> rfl

/-- R24: an open show may be cancelled. -/
theorem Phase.mayBecome_cancelled {a : Phase} (ho : a.isOpen = true) : a.mayBecome .cancelled = true := by
  cases a with
  | selling | seating | running => rfl
  | draft | ended | cancelled => cases ho

theorem Show.phase_mayBecome_evaluate (x : Show) (minute : Nat) : x.phase.mayBecome (x.evaluate minute).phase = true := by
  rcases x.evaluate_phase minute with h | ⟨ho, hr, hc⟩
  · rw [h, Phase.mayBecome_self]
  · refine (Phase.mayBecome_iff _ _).mpr ⟨Nat.le_of_lt hr, fun h => absurd h hc, fun h => ?_⟩
    rw [h] at ho
    cases ho

/-- R13: evaluation cancels no show. -/
theorem Show.cancelled_of_evaluate {x : Show} {minute : Nat} (h : (x.evaluate minute).phase = .cancelled) :
    x.phase = .cancelled := by
  rcases x.evaluate_phase minute with e | ⟨_, _, hc⟩
  · rw [← e, h]
  · exact absurd h hc

/-- R15: testing a listing moves no phase. -/
@[simp] theorem Show.retest_phase (x : Show) (minute : Nat) : (x.retest minute).phase = x.phase := by
  unfold Show.retest
  split <;> rfl

/-! ## The phases of all slots -/

/-- R13: every occupied slot stays occupied, with a phase that may follow the one it had. -/
def State.phasesForward (s t : State) : Prop :=
  ∀ n a, s.phaseAt n = some a → ∃ b, t.phaseAt n = some b ∧ a.mayBecome b = true

/-- R25, R11, R195: every slot keeps its phase or is EMPTY. -/
def State.phasesKeptOrEmptied (s t : State) : Prop := ∀ n, t.phaseAt n = s.phaseAt n ∨ t.phaseAt n = none

theorem State.phasesForward_of_eq {s t : State} (h : t.phaseAt = s.phaseAt) : s.phasesForward t :=
  fun n a ha => ⟨a, by rw [h, ha], a.mayBecome_self⟩

theorem State.phasesForward_of_st {s t : State} (h : t.st = s.st) : s.phasesForward t :=
  State.phasesForward_of_eq (State.phaseAt_of_st h)

/-- Phases alone bear on the law, before and after. -/
theorem State.phasesForward_congr {s t u v : State} (h : u.phasesForward v) (hu : u.phaseAt = s.phaseAt)
    (hv : t.phaseAt = v.phaseAt) : s.phasesForward t := by
  unfold State.phasesForward at h ⊢
  rwa [hv, ← hu]

/-- An operation on one slot. -/
theorem State.phasesForward_of_slot {s t : State} {n : Nat} (other : ∀ k, n ≠ k → t.phaseAt k = s.phaseAt k)
    (same : ∀ a, s.phaseAt n = some a → ∃ b, t.phaseAt n = some b ∧ a.mayBecome b = true) : s.phasesForward t := by
  intro k a ha
  by_cases hk : n = k
  · subst hk
    exact same a ha
  · exact ⟨a, (other k hk).trans ha, a.mayBecome_self⟩

/-- An order that passes its checks makes of the phases what its own effect makes of them, and no other order moves a phase. -/
theorem State.phaseAt_order {α : Type} (s : State) (code : Nat) (parse : List Byte → Option α)
    (base : List Byte → State → List Fld) (act : OrderHead → α → State → State × Answer) :
    (s.order code parse base act).phaseAt = s.phaseAt
      ∨ ∃ x a, (s.order code parse base act).phaseAt = (act x a s).1.phaseAt := by
  unfold State.order
  split
  · exact .inl rfl
  · split
    · exact .inl (State.phaseAt_of_st (by simp))
    · next c _ _ a _ =>
      exact .inr ⟨orderHead c, a, State.phaseAt_of_st (by simp)⟩

theorem State.phasesForward_order {α : Type} {s : State} {code : Nat} {parse : List Byte → Option α}
    {base : List Byte → State → List Fld} {act : OrderHead → α → State → State × Answer}
    (h : ∀ x a (t : State), t.phasesForward (act x a t).1) : s.phasesForward (s.order code parse base act) := by
  rcases s.phaseAt_order code parse base act with e | ⟨x, a, e⟩
  · exact State.phasesForward_of_eq e
  · exact State.phasesForward_congr (h x a s) rfl e

/-! ## What moves a phase: evaluation, the minute, and the show orders -/

/-- R12: the evaluation of slot `n` leaves every slot alone, or evaluates the record in slot `n` at the minute. -/
theorem State.evaluate_cases (n : Nat) (s : State) :
    (s.evaluate n).phaseAt = s.phaseAt
      ∨ ∃ m x, s.showAt n = some x ∧ (s.evaluate n).phaseAt = (s.setShow n (x.evaluate m)).phaseAt := by
  unfold State.evaluate
  split
  · next m _ x _ hx =>
    refine .inr ⟨m, x, hx, ?_⟩
    dsimp only
    split
    · exact State.phaseAt_of_st rfl
    · rfl
  · exact .inl rfl
  · exact .inl rfl

theorem State.phaseAt_evaluate_other (s : State) {n k : Nat} (hk : n ≠ k) : (s.evaluate n).phaseAt k = s.phaseAt k := by
  rcases s.evaluate_cases n with e | ⟨m, x, _, e⟩
  · rw [e]
  · rw [e, State.phaseAt_setShow_other s _ hk]

/-- R13: the slot's own phase moves forward, and to CANCELLED only from CANCELLED. -/
theorem State.phaseAt_evaluate_same {s : State} {n : Nat} {a : Phase} (ha : s.phaseAt n = some a) :
    ∃ b, (s.evaluate n).phaseAt n = some b ∧ a.mayBecome b = true ∧ (b = .cancelled → a = .cancelled) := by
  rcases s.evaluate_cases n with e | ⟨m, x, hx, e⟩
  · exact ⟨a, by rw [e, ha], a.mayBecome_self, id⟩
  · obtain rfl : x.phase = a := by simpa [State.phaseAt_of_showAt hx] using ha
    exact ⟨(x.evaluate m).phase, by rw [e, State.phaseAt_setShow_same], x.phase_mayBecome_evaluate m,
      Show.cancelled_of_evaluate⟩

theorem State.phasesForward_evaluate (n : Nat) (s : State) : s.phasesForward (s.evaluate n) :=
  State.phasesForward_of_slot (fun _ hk => s.phaseAt_evaluate_other hk) fun _ ha =>
    let ⟨b, hb, hab, _⟩ := State.phaseAt_evaluate_same ha
    ⟨b, hb, hab⟩

/-- R18: every occupied slot holds its record at the minute. -/
theorem State.showAt_minutePass (m n : Nat) (s : State) :
    (s.minutePass m).showAt n = (s.showAt n).map (Show.minute m) := by
  simp [State.showAt, State.minutePass, Tbl.get_map]

/-- R18: the pass of a minute over every show. -/
theorem State.phasesForward_minutePass (m : Nat) (s : State) : s.phasesForward (s.minutePass m) := by
  intro n a ha
  obtain ⟨x, hx, rfl⟩ := State.phaseAt_eq_some.mp ha
  have hm : (s.minutePass m).showAt n = some (x.minute m) := by rw [State.showAt_minutePass, hx]; rfl
  refine ⟨(x.minute m).phase, State.phaseAt_of_showAt hm, ?_⟩
  rw [Show.minute, Show.retest_phase]
  exact x.phase_mayBecome_evaluate m

/-- R18. -/
theorem State.phasesForward_minuteEvent (s : State) : s.phasesForward s.minuteEvent := by
  unfold State.minuteEvent
  split
  · exact State.phasesForward_of_eq rfl
  · next m rest _ =>
    exact State.phasesForward_congr (State.phasesForward_minutePass m { s with paths := { s.paths with showMinutes := rest } })
      rfl rfl

/-- R5. -/
theorem phasesForward_actClockSet (h : OrderHead) (a : Nat × Nat) (s : State) : s.phasesForward (actClockSet h a s).1 :=
  State.phasesForward_congr (State.phasesForward_minutePass a.1 (s.setClock (.running a.1 a.2)))
    (State.phaseAt_of_st rfl) (State.phaseAt_of_st rfl)

/-- R20: SHOW LOAD writes a DRAFT record into a slot that is EMPTY or holds one. -/
theorem phasesForward_actShowLoad (h : OrderHead) (a : Nat × ShowFields) (s : State) :
    s.phasesForward (actShowLoad h a s).1 := by
  unfold actShowLoad
  split
  · exact State.phasesForward_of_eq rfl
  · next hl =>
    split
    · exact State.phasesForward_of_eq rfl
    · refine State.phasesForward_congr (v := s.setShow a.1 a.2.record) ?_ rfl (State.phaseAt_showChange a.1 _)
      refine State.phasesForward_of_slot (n := a.1) (fun k hk => State.phaseAt_setShow_other s _ hk) fun b hb => ?_
      obtain ⟨x, hx, rfl⟩ := State.phaseAt_eq_some.mp hb
      have draft : x.phase = .draft := by simpa [State.loadable, hx] using hl
      exact ⟨.draft, State.phaseAt_setShow_same s _ _, by rw [draft]; rfl⟩

/-- R21: a DRAFT show becomes SELLING, and evaluation takes it on from there, but not to CANCELLED. -/
theorem State.phasesForward_publish {s : State} {n : Nat} {x : Show} (hx : s.showAt n = some x) (hd : x.phase = .draft) :
    s.phasesForward ((s.setShow n { x with phase := .selling }).evaluate n) := by
  refine State.phasesForward_of_slot (n := n) (fun k hk => ?_) fun a ha => ?_
  · rw [State.phaseAt_evaluate_other _ hk, State.phaseAt_setShow_other s _ hk]
  · obtain rfl : Phase.draft = a := by simpa [State.phaseAt_of_showAt hx, hd] using ha
    obtain ⟨b, hb, -, hc⟩ := State.phaseAt_evaluate_same (State.phaseAt_setShow_same s n { x with phase := .selling })
    have notCancelled : b ≠ .cancelled := fun e => by cases hc e
    exact ⟨b, hb, by simpa [Phase.mayBecome] using notCancelled⟩

/-- R21. -/
theorem phasesForward_actShowPublish (h : OrderHead) (n : Nat) (s : State) : s.phasesForward (actShowPublish h n s).1 := by
  unfold actShowPublish
  split
  · exact State.phasesForward_of_eq rfl
  · next x hx =>
    split
    · exact State.phasesForward_of_eq rfl
    · next hd =>
      split
      · exact State.phasesForward_of_eq rfl
      · exact State.phasesForward_congr (State.phasesForward_publish hx (Decidable.not_not.mp hd)) rfl (State.phaseAt_showChange n _)

/-- R22: an evaluation made only under a condition. -/
theorem State.phasesForward_evaluateIf (c : Bool) (n : Nat) (s : State) :
    s.phasesForward (if c then s.evaluate n else s) := by
  split
  · exact State.phasesForward_evaluate n s
  · exact State.phasesForward_of_eq rfl

/-- R22: an edit moves a phase by its evaluation alone. -/
theorem State.phasesForward_editShow (e : ShowEdit) {x : Show} {s : State} (hx : s.showAt e.showNo = some x) :
    s.phasesForward (s.editShow e x) := by
  have written : (s.setShow e.showNo (e.apply x)).phaseAt = s.phaseAt := State.phaseAt_setShow_keeps hx rfl
  refine State.phasesForward_congr (State.phasesForward_evaluateIf _ _ _) ?_ (State.phaseAt_announce _ _ _)
  split
  · exact (State.phaseAt_settleTally _ _ _).trans written
  · exact written

/-- R22. -/
theorem phasesForward_actShowEdit (h : OrderHead) (e : ShowEdit) (s : State) : s.phasesForward (actShowEdit h e s).1 := by
  unfold actShowEdit
  split
  · exact State.phasesForward_of_eq rfl
  · next x hx =>
    split
    · exact State.phasesForward_of_eq rfl
    · exact State.phasesForward_editShow e hx

/-- R23: a delay moves a phase by its evaluation alone. -/
theorem State.phasesForward_delayShow (n minutes : Nat) (s : State) : s.phasesForward (s.delayShow n minutes) := by
  unfold State.delayShow
  split
  · exact State.phasesForward_of_eq rfl
  · next x hx =>
    split
    · exact State.phasesForward_of_eq rfl
    · exact State.phasesForward_congr (State.phasesForward_evaluate n (s.setShow n { x with delay := minutes }))
        (State.phaseAt_setShow_keeps hx rfl) (State.phaseAt_announce n x _)

/-- R23. -/
theorem phasesForward_actShowDelay (h : OrderHead) (a : Nat × Nat) (s : State) : s.phasesForward (actShowDelay h a s).1 := by
  unfold actShowDelay
  split
  · exact State.phasesForward_of_eq rfl
  · exact State.phasesForward_delayShow a.1 a.2 s

/-- R24: only an open show passes the conditions of SHOW CANCEL. -/
theorem State.isOpen_of_cancelRefusal {s : State} {n : Nat} {x : Show} (h : s.cancelRefusal n = none)
    (hx : s.showAt n = some x) : x.phase.isOpen = true := by
  simpa [State.cancelRefusal, hx] using h

/-- R24. -/
theorem State.phasesForward_cancelShow {n : Nat} {s : State} (h : s.cancelRefusal n = none) :
    s.phasesForward (s.cancelShow n) := by
  unfold State.cancelShow
  split
  · exact State.phasesForward_of_eq rfl
  · next x hx =>
    dsimp only
    refine State.phasesForward_congr (u := s) ?_ rfl
      ((State.phaseAt_announce n x _).trans (State.phaseAt_endPassPlaced _ _ _))
    refine State.phasesForward_of_slot (n := n) (fun k hk => State.phaseAt_setShow_other s _ hk) fun a ha => ?_
    obtain rfl : x.phase = a := by simpa [State.phaseAt_of_showAt hx] using ha
    exact ⟨.cancelled, State.phaseAt_setShow_same s _ _, Phase.mayBecome_cancelled (State.isOpen_of_cancelRefusal h hx)⟩

/-- R24. -/
theorem phasesForward_actShowCancel (h : OrderHead) (n : Nat) (s : State) : s.phasesForward (actShowCancel h n s).1 := by
  unfold actShowCancel
  split
  · exact State.phasesForward_of_eq rfl
  · next hr => exact State.phasesForward_cancelShow hr

/-- R124: the show effect of a notice. -/
theorem State.phasesForward_showEffect {b : Option ShowBinding} {s : State} (h : s.effectRefusal b = none) :
    s.phasesForward (s.showEffect b) := by
  cases b with
  | none => exact State.phasesForward_of_eq rfl
  | some b =>
    simp only [State.effectRefusal] at h
    unfold State.showEffect
    cases he : b.effect with
    | none => exact State.phasesForward_of_eq (by simp [he])
    | delay m => simpa [he] using State.phasesForward_delayShow b.showNo m s
    | cancel => simpa [he] using State.phasesForward_cancelShow (by simpa [he] using h)

/-- R122: a post that is not refused has an effect that its show's own conditions allow. -/
theorem State.effectRefusal_of_postRefusal {s : State} {o : PostOrder} (h : s.postRefusal o = none) :
    s.effectRefusal o.binding = none := by
  unfold State.postRefusal at h
  split at h
  · cases h
  · split at h
    · cases h
    · split at h
      · cases h
      · assumption

/-- R122 reads the shows alone for an effect's conditions, and the pin of R123 leaves them. -/
theorem State.effectRefusal_holdPin (body : NoticeBody) (b : Option ShowBinding) (s : State) :
    (s.holdPin body).effectRefusal b = s.effectRefusal b := by
  have shows : (s.holdPin body).showAt = s.showAt := by
    funext n
    simp [State.showAt]
  simp only [State.effectRefusal, State.delayRefusal, State.cancelRefusal, shows]

/-- R123: a post moves phases by its show effect alone. -/
theorem phasesForward_actNoticePost (h : OrderHead) (o : PostOrder) (s : State) :
    s.phasesForward (actNoticePost h o s).1 := by
  unfold actNoticePost
  split
  · exact State.phasesForward_of_eq rfl
  · next hr =>
    have allowed : (s.holdPin o.body).effectRefusal o.binding = none := by
      rw [State.effectRefusal_holdPin, State.effectRefusal_of_postRefusal hr]
    exact State.phasesForward_congr (State.phasesForward_showEffect allowed) (State.phaseAt_of_st (by simp))
      (State.phaseAt_of_st (by simp [State.postNotice]))

/-! ## What empties a slot: SHOW DROP, the Show Table's part of a UNIT RESET, power-on -/

/-- R25. -/
theorem phasesKeptOrEmptied_dropShow (n : Nat) (s : State) : s.phasesKeptOrEmptied (dropShow n s).1 := by
  intro k
  unfold dropShow
  split
  · exact .inl rfl
  · split
    · exact .inl rfl
    · rw [State.phaseAt_showChange, State.phaseAt_clearShow]
      split
      · exact .inr rfl
      · exact .inl rfl

/-- R25, R44. -/
theorem State.phasesKeptOrEmptied_showDrop (s : State) :
    s.phasesKeptOrEmptied (s.order 0x17 parseShow baseShow actShowDrop) := by
  intro k
  rcases s.phaseAt_order 0x17 parseShow baseShow actShowDrop with e | ⟨_, n, e⟩
  · exact .inl (congrFun e k)
  · obtain ⟨u, hu, hd⟩ := s.phaseAt_afterNotice n (dropShow n)
    rw [e, ← hu]
    exact (congrFun hd k) ▸ phasesKeptOrEmptied_dropShow n u k

/-- R193: the placing of the reset's reply moves no phase. -/
theorem State.replyIfTaken_st (s : State) : s.replyIfTaken.st = s.st := by
  unfold State.replyIfTaken State.finishReset
  (repeat' split) <;> simp

/-- R193: no owner's part but the Show Table's touches the shows. -/
theorem State.takeReset_st {o : Owner} (h : o ≠ .showTable) (s : State) : (s.takeReset o).st = s.st := by
  cases o with
  | showTable => exact absurd rfl h
  | panelPorts => exact State.forPorts_st s allPorts State.resetLine (by simp)
  | timebase | seatTally | boardComposer | segmentTable | reelTable | playoutChannels | noticeQueue | feedRing => rfl

theorem State.resetTakenBy_st {o : Owner} (h : o ≠ .showTable) (s : State) : (s.resetTakenBy o).st = s.st := by
  unfold State.resetTakenBy
  split
  · split
    · exact (State.replyIfTaken_st _).trans (State.takeReset_st h _)
    · rfl
  · rfl

/-- R11. -/
theorem State.phasesKeptOrEmptied_resetShowTable (s : State) : s.phasesKeptOrEmptied (s.resetTakenBy .showTable) := by
  intro n
  unfold State.resetTakenBy
  split
  · split
    · refine .inr ?_
      rw [State.phaseAt_of_st (State.replyIfTaken_st _)]
      rfl
    · exact .inl rfl
  · exact .inl rfl

/-! ## The commands -/

/-- The three commands that may empty a show slot. -/
theorem emptiesShows_iff (c : Instr) :
    emptiesShows c = true ↔ c = .showDrop ∨ c = .resetTakenByOwner .showTable ∨ ∃ straps, c = .powerOn straps := by
  cases c <;> simp [emptiesShows]

/-- R13: a command that empties no slot takes every show to a phase that may follow the one it has. -/
theorem exec_phasesForward {c : Instr} {s t : State} (hc : emptiesShows c = false) (h : exec c s = .next t) :
    s.phasesForward t := by
  cases c with
  | powerOn | showDrop => cases hc
  | resetTakenByOwner o =>
    cases h
    exact State.phasesForward_of_st (State.resetTakenBy_st (by simpa [emptiesShows] using hc) s)
  | minuteEvent => cases h; exact State.phasesForward_minuteEvent s
  | clockSet => cases h; exact State.phasesForward_order phasesForward_actClockSet
  | showLoad => cases h; exact State.phasesForward_order phasesForward_actShowLoad
  | showPublish => cases h; exact State.phasesForward_order phasesForward_actShowPublish
  | showEdit => cases h; exact State.phasesForward_order phasesForward_actShowEdit
  | showDelay => cases h; exact State.phasesForward_order phasesForward_actShowDelay
  | showCancel => cases h; exact State.phasesForward_order phasesForward_actShowCancel
  | noticePost => cases h; exact State.phasesForward_order phasesForward_actNoticePost
  | titleLoad =>
    cases h
    exact State.phasesForward_order fun x a t => State.phasesForward_of_eq (phaseAt_actTitleLoad x a t)
  | titleClear =>
    cases h
    exact State.phasesForward_order fun x a t => State.phasesForward_of_eq (phaseAt_actTitleClear x a t)
  | holdExpiry => cases h; exact State.phasesForward_of_eq (State.phaseAt_holdExpiry s)
  | endNotice => cases h; exact State.phasesForward_of_eq (State.phaseAt_endNotice s)
  | showRead | tallyRead =>
    cases h
    refine State.phasesForward_order fun _ _ t =>
      State.phasesForward_of_eq (State.phaseAt_afterNotice_keeps _ (fun _ => State.phaseAt_of_st ?_) t)
    simp
  | holdRead =>
    cases h
    refine State.phasesForward_order fun _ _ t =>
      State.phasesForward_of_eq (State.phaseAt_afterKeyNotice_keeps _ (fun _ => State.phaseAt_of_st ?_) t)
    simp
  | seatHold =>
    cases h
    exact State.phasesForward_order fun _ o t =>
      State.phasesForward_of_eq (State.phaseAt_afterNotice_keeps _ (phaseAt_seatHold o) t)
  | seatConfirm =>
    cases h
    exact State.phasesForward_order fun _ k t =>
      State.phasesForward_of_eq (State.phaseAt_afterKeyNotice_keeps _ (phaseAt_seatConfirm k) t)
  | seatRelease =>
    cases h
    exact State.phasesForward_order fun _ k t =>
      State.phasesForward_of_eq (State.phaseAt_afterKeyNotice_keeps _ (phaseAt_seatRelease k) t)
  | seatSell =>
    cases h
    exact State.phasesForward_order fun _ a t =>
      State.phasesForward_of_eq (State.phaseAt_afterNotice_keeps _ (phaseAt_seatSell a.1 a.2) t)
  | seatRefund =>
    cases h
    exact State.phasesForward_order fun _ a t =>
      State.phasesForward_of_eq (State.phaseAt_afterNotice_keeps _ (phaseAt_seatRefund a.1 a.2) t)
  | hello | clockRead | boardSet | boardRepaint | boardRead | segmentDefine | segmentFinish | segmentRetire | segmentRead
    | reelWrite | reelClear | reelRead | reelStart | reelHalt | reelTest | portsTest | noticeWithdraw | noticeRead
    | portEnable | portDisable | portReset | portSet | routeSet | routeRead =>
    cases h
    refine State.phasesForward_of_st (State.order_st _ _ _ _ _ fun _ _ _ => ?_)
    simp
  | feedCellArrival cell claimFirst =>
    simp only [exec, execFeedCellArrival] at h
    split at h
    · cases h
      exact State.phasesForward_of_st (by simp)
    · cases h
  | runSecond | noticeExpiry | clockSecond | boardMinuteEvent | unitReset | unknownOrder | load | feedLoss | ownSlot
    | reelEnd | reelMark | holdLapsed | noticeClosed | segmentFreed | portStalled | portRestored | panelWoken | feedRestored
    | dayRolled | arbiterTake | keepaliveTimeout | cellStart | cellSent | holdAsserted | slip | holdReleased | holdTimeout
    | linkTimeout | retryTimeout =>
    cases h
    exact State.phasesForward_of_st (by simp)

/-- A command that may empty a slot moves no phase. -/
theorem exec_phasesKeptOrEmptied {c : Instr} {s t : State} (hc : emptiesShows c = true) (h : exec c s = .next t) :
    s.phasesKeptOrEmptied t := by
  obtain rfl | rfl | ⟨straps, rfl⟩ := (emptiesShows_iff c).mp hc
  · cases h
    exact State.phasesKeptOrEmptied_showDrop s
  · cases h
    exact State.phasesKeptOrEmptied_resetShowTable s
  · cases h
    exact fun _ => .inr rfl

/-- R13: the law of the show phase over every command. -/
theorem exec_phaseAt {c : Instr} {s t : State} {n : Nat} {a : Phase} (h : exec c s = .next t) (ha : s.phaseAt n = some a) :
    (∃ b, t.phaseAt n = some b ∧ a.mayBecome b = true) ∨ (t.phaseAt n = none ∧ emptiesShows c = true) := by
  cases hc : emptiesShows c with
  | false => exact .inl (exec_phasesForward hc h n a ha)
  | true =>
    rcases exec_phasesKeptOrEmptied hc h n with e | e
    · exact .inl ⟨a, e.trans ha, a.mayBecome_self⟩
    · exact .inr ⟨e, rfl⟩

/-- Settles O19: evaluation by its three cases, and the law of the phase by what each command does to the phases of all slots. -/
theorem showPhasesMoveForward : Obligations.ShowPhasesMoveForward := by
  unfold Obligations.ShowPhasesMoveForward
  refine ⟨fun x minute => ⟨Show.evaluate_forward, fun _ => Show.evaluate_stays, Show.evaluate_closed⟩, ?_⟩
  intro c s t n x h hx
  rcases exec_phaseAt h (State.phaseAt_of_showAt hx) with ⟨b, hb, hab⟩ | ⟨hnone, hc⟩
  · refine ⟨fun y hy => ?_, fun hy => ?_⟩
    · obtain rfl : y.phase = b := by simpa [State.phaseAt_of_showAt hy] using hb
      exact (Phase.mayBecome_iff _ _).mp hab
    · simp [State.phaseAt_eq_none.mpr hy] at hb
  · refine ⟨fun y hy => ?_, fun _ => (emptiesShows_iff c).mp hc⟩
    simp [State.phaseAt_of_showAt hy] at hnone

end Sys2Proof.Machine
end

section
/-! SUPPORT. Availability from the new free count (R28): what `Avail.recompute` gives in each range of free. -/
namespace Sys2Proof.Machine

@[simp] theorem Avail.recompute_zero (few band : Nat) (before : Avail) : Avail.recompute 0 few band before = .full := rfl

theorem Avail.recompute_few {free few : Nat} (band : Nat) (before : Avail) (hpos : 0 < free) (hfew : free ≤ few) :
    Avail.recompute free few band before = .few := by
  have hne : free ≠ 0 := by omega
  simp [Avail.recompute, hne, hfew]

theorem Avail.recompute_opn {free few band : Nat} (before : Avail) (habove : few + band < free) :
    Avail.recompute free few band before = .opn := by
  have hpos : free ≠ 0 := by omega
  have hfew : ¬ free ≤ few := by omega
  simp [Avail.recompute, hpos, hfew, habove]

/-- Within the band availability depends on what it was before: a show that was FULL has few seats again, any other keeps its
availability. -/
theorem Avail.recompute_band {free few band : Nat} (before : Avail) (hfew : few < free) (hband : free ≤ few + band) :
    Avail.recompute free few band before = if before = .full then .few else before := by
  have hpos : free ≠ 0 := by omega
  cases before <;> simp [Avail.recompute, hpos, Nat.not_le.mpr hfew, Nat.not_lt.mpr hband]

/-- Settles O21, by the four ranges of the free count. -/
theorem availabilityFollowsFree : Obligations.AvailabilityFollowsFree := by
  unfold Obligations.AvailabilityFollowsFree
  intro free few band before
  refine ⟨?zero, ?few, ?above, ?band⟩
  case zero =>
    rintro rfl
    exact Avail.recompute_zero few band before
  case few => exact Avail.recompute_few band before
  case above => exact fun _ habove => Avail.recompute_opn before habove
  case band => exact fun _ hfew hband => Avail.recompute_band before hfew hband

end Sys2Proof.Machine
end
